-- ==== Sys2Proof/Word.lean ====
section
/-! DEFINITION. The machine words of the block: bytes of a byte string (spec/00_scope.md R10), the command word
(30_encoding.md R60), the 32-bit scalar operands (R60) and the 64-bit scalar results (R61). -/

namespace Sys2Proof

/-- One 8-bit value of a byte string (00_scope.md R10). -/
abbrev Byte := BitVec 8

/-- A command word `CW` (30_encoding.md R60, R62). -/
abbrev CommandWord := BitVec 16

/-- A scalar operand, `A` or `B` (30_encoding.md R60). -/
abbrev Operand := BitVec 32

/-- A scalar result, `R0` or `R1` (30_encoding.md R61). -/
abbrev Scalar := BitVec 64

end Sys2Proof
end

