-- ==== Sys2Proof/Config.lean ====
section
/-! DEFINITION. The configuration of the block (spec/00_scope.md R5): every parameter as plain data, and the values the spec
leaves OPEN as constants with no body. The values R5 fixes for this hardware stand in Machine/Device.lean. -/

namespace Sys2Proof

/-- The polynomial (written without its top term), the initial value and the final exclusive-or value of one CRC engine of
width `w` (00_scope.md R5; 40_crc_engines.md R100). -/
structure CrcParams (w : Nat) where
  /-- `CRCW_POLY` -/
  poly : BitVec w
  /-- `CRCW_INIT` -/
  init : BitVec w
  /-- `CRCW_XOROUT` -/
  xorOut : BitVec w
deriving DecidableEq, Repr, Inhabited

/-- `RX_LAYOUT`: which of the length field and the inner command comes first in a reply frame (30_encoding.md R72). -/
inductive RxLayout where
  /-- `LEN_THEN_INNER` -/
  | lenThenInner
  /-- `INNER_THEN_LEN` -/
  | innerThenLen
deriving DecidableEq, Repr, Inhabited

/-- The two historical magic arrangements of a legacy reply (30_encoding.md R74). -/
inductive Arrangement where
  | a
  | b
deriving DecidableEq, Repr, Inhabited

/-- The configuration parameters of 00_scope.md R5, one field each. The two functions on 8 bits are tables of 256 entries, so
that a configuration is plain data. -/
structure Config where
  /-- `TX_MAGIC`, 4 bytes -/
  txMagic : Vector Byte 4
  /-- `RX_MAGIC`, 2 bytes -/
  rxMagic : Vector Byte 2
  /-- `RX_EXT_CMD`, 8 bits -/
  rxExtCmd : Byte
  /-- `RX_LAYOUT` -/
  rxLayout : RxLayout
  /-- `RX_ENVELOPE_OVERHEAD`, a natural number -/
  rxEnvelopeOverhead : Nat
  /-- `RX_STRICT_LENGTH` -/
  rxStrictLength : Bool
  /-- `CRC8_POLY`, `CRC8_INIT`, `CRC8_XOROUT` -/
  crc8 : CrcParams 8
  /-- `CRC16_POLY`, `CRC16_INIT`, `CRC16_XOROUT` -/
  crc16 : CrcParams 16
  /-- `CRC32_POLY`, `CRC32_INIT`, `CRC32_XOROUT` -/
  crc32 : CrcParams 32
  /-- `LEGACY_ARRANGEMENT`, the entry of legacy command `c` at index `c` -/
  legacyArrangement : Vector Arrangement 256
  /-- `LEGACY_RX_MAGIC_A`, a byte string of length 1 to 8 -/
  legacyRxMagicA : List Byte
  /-- `LEGACY_RX_MAGIC_B`, a byte string of length 1 to 8 -/
  legacyRxMagicB : List Byte
  /-- `LEGACY_REPLY_LEN`, the entry of legacy command `c` at index `c` -/
  legacyReplyLen : Vector Nat 256
  /-- `MAX_BUF`, a natural number -/
  maxBuf : Nat
deriving DecidableEq, Repr

/-- The entry of a table of 256 entries at the byte `c`. -/
def tableAt {α : Type} (t : Vector α 256) (c : Byte) : α := t[c.toNat]'c.isLt

/-- The table of 256 entries of a function on bytes. -/
def byteTable {α : Type} (f : Byte → α) : Vector α 256 :=
  ⟨⟨(List.range 256).map fun n => f (BitVec.ofNat 8 n)⟩, by simp⟩

/-- `LEGACY_ARRANGEMENT(c)` (00_scope.md R5). -/
def Config.arrangementOf (cfg : Config) (c : Byte) : Arrangement := tableAt cfg.legacyArrangement c

/-- `LEGACY_RX_MAGIC_X` of an arrangement `X` (00_scope.md R5). -/
def Config.legacyMagic (cfg : Config) : Arrangement → List Byte
  | .a => cfg.legacyRxMagicA
  | .b => cfg.legacyRxMagicB

/-- `LEGACY_REPLY_LEN(c)` (00_scope.md R5). -/
def Config.replyLenOf (cfg : Config) (c : Byte) : Nat := tableAt cfg.legacyReplyLen c

/-! The OPEN parameters of this hardware (00_scope.md R5; 93_implementation_defined.md U8 to U11): no body, so no proof can use
a value of theirs. Notes entry 2. -/

/-- `TX_MAGIC` of this hardware, OPEN (92 D5). -/
opaque Config.openTxMagic : Vector Byte 4
/-- `RX_MAGIC` of this hardware, OPEN (92 D6). -/
opaque Config.openRxMagic : Vector Byte 2
/-- `RX_EXT_CMD` of this hardware, OPEN (92 D7). -/
opaque Config.openRxExtCmd : Byte
/-- `RX_LAYOUT` of this hardware, OPEN (92 D8). -/
opaque Config.openRxLayout : RxLayout
/-- `RX_ENVELOPE_OVERHEAD` of this hardware, OPEN (92 D9). -/
opaque Config.openRxEnvelopeOverhead : Nat
/-- The CRC8 parameters of this hardware, OPEN (92 D13). -/
opaque Config.openCrc8 : CrcParams 8
/-- The CRC32 parameters of this hardware, OPEN (92 D14). -/
opaque Config.openCrc32 : CrcParams 32
/-- `LEGACY_ARRANGEMENT` of this hardware, OPEN (92 D19). -/
opaque Config.openLegacyArrangement : Byte → Arrangement
/-- The first byte of `LEGACY_RX_MAGIC_A` and bytes of which the magic takes at most 7 more, OPEN (92 D19). -/
opaque Config.openLegacyMagicA : Byte × List Byte
/-- The first byte of `LEGACY_RX_MAGIC_B` and bytes of which the magic takes at most 7 more, OPEN (92 D19). -/
opaque Config.openLegacyMagicB : Byte × List Byte
/-- `LEGACY_REPLY_LEN` of this hardware before it is brought into the range of R5, OPEN (92 D19). -/
opaque Config.openLegacyReplyLen : Byte → Nat

/-- The free value a 64-bit result holds where the spec states none: 00_scope.md R9 gives `zext_64(v)` only for `v < 2^64`.
Applied to the value that does not fit. Notes entry 8. -/
opaque Config.freeScalar : Nat → Scalar

end Sys2Proof
end

