-- ==== Sys2Proof/Syntax.lean ====
section
/-! DEFINITION. The operations, one constructor for each row of spec/opcode_table.json, and what a host presents to the block: a
request (spec/30_encoding.md R60) or a reset (70_reset_and_hazards.md R230). -/

namespace Sys2Proof

/-- The 34 operations of 30_encoding.md R66, INT.WRAP, INT.PACK and INT.UNPACK once for each legal `MOD` value (R63). The command
word holds no operand: operands travel beside it in `A`, `B` and `IN0` (R60, R65), so no constructor has an argument. -/
inductive Instr where
  /-- CRC8.CLR, rule R110, `CW = 0x1000` -/
  | crc8Clr
  /-- CRC8.LD, rule R111, `CW = 0x1100` -/
  | crc8Ld
  /-- CRC8.UPD, rule R112, `CW = 0x1200` -/
  | crc8Upd
  /-- CRC8.BLK, rule R113, `CW = 0x1300` -/
  | crc8Blk
  /-- CRC8.RD, rule R114, `CW = 0x1400` -/
  | crc8Rd
  /-- CRC8.CALC, rule R115, `CW = 0x1500` -/
  | crc8Calc
  /-- CRC8.TBL, rule R116, `CW = 0x1600` -/
  | crc8Tbl
  /-- CRC16.CLR, rule R117, `CW = 0x2000` -/
  | crc16Clr
  /-- CRC16.LD, rule R118, `CW = 0x2100` -/
  | crc16Ld
  /-- CRC16.UPD, rule R119, `CW = 0x2200` -/
  | crc16Upd
  /-- CRC16.BLK, rule R120, `CW = 0x2300` -/
  | crc16Blk
  /-- CRC16.RD, rule R121, `CW = 0x2400` -/
  | crc16Rd
  /-- CRC16.CALC, rule R122, `CW = 0x2500` -/
  | crc16Calc
  /-- CRC16.TBL, rule R123, `CW = 0x2600` -/
  | crc16Tbl
  /-- CRC32.CLR, rule R124, `CW = 0x3000` -/
  | crc32Clr
  /-- CRC32.LD, rule R125, `CW = 0x3100` -/
  | crc32Ld
  /-- CRC32.UPD, rule R126, `CW = 0x3200` -/
  | crc32Upd
  /-- CRC32.BLK, rule R127, `CW = 0x3300` -/
  | crc32Blk
  /-- CRC32.RD, rule R128, `CW = 0x3400` -/
  | crc32Rd
  /-- CRC32.CALC, rule R129, `CW = 0x3500` -/
  | crc32Calc
  /-- CRC32.TBL, rule R130, `CW = 0x3600` -/
  | crc32Tbl
  /-- LEN.ENC, rule R142, `CW = 0x4000` -/
  | lenEnc
  /-- LEN.DEC, rule R143, `CW = 0x4100` -/
  | lenDec
  /-- FRM.ENCX, rule R152, `CW = 0x5000` -/
  | frmEncx
  /-- FRM.ENCL, rule R155, `CW = 0x5100` -/
  | frmEncl
  /-- FRM.CHKX, rule R162, `CW = 0x6000` -/
  | frmChkx
  /-- FRM.RXLEN, rule R164, `CW = 0x6100` -/
  | frmRxlen
  /-- FRM.CHKL, rule R166, `CW = 0x6200` -/
  | frmChkl
  /-- INT.WRAP.U8, rule R181, `CW = 0x7000` -/
  | intWrapU8
  /-- INT.WRAP.U16, rule R181, `CW = 0x7001` -/
  | intWrapU16
  /-- INT.WRAP.U32, rule R181, `CW = 0x7002` -/
  | intWrapU32
  /-- INT.WRAP.S8, rule R181, `CW = 0x7004` -/
  | intWrapS8
  /-- INT.WRAP.S16, rule R181, `CW = 0x7005` -/
  | intWrapS16
  /-- INT.WRAP.S32, rule R181, `CW = 0x7006` -/
  | intWrapS32
  /-- INT.PACK.U8, rule R182, `CW = 0x7100` -/
  | intPackU8
  /-- INT.PACK.U16, rule R182, `CW = 0x7101` -/
  | intPackU16
  /-- INT.PACK.U32, rule R182, `CW = 0x7102` -/
  | intPackU32
  /-- INT.PACK.S8, rule R182, `CW = 0x7104` -/
  | intPackS8
  /-- INT.PACK.S16, rule R182, `CW = 0x7105` -/
  | intPackS16
  /-- INT.PACK.S32, rule R182, `CW = 0x7106` -/
  | intPackS32
  /-- INT.UNPACK.U8, rule R183, `CW = 0x7200` -/
  | intUnpackU8
  /-- INT.UNPACK.U16, rule R183, `CW = 0x7201` -/
  | intUnpackU16
  /-- INT.UNPACK.U32, rule R183, `CW = 0x7202` -/
  | intUnpackU32
  /-- INT.UNPACK.S8, rule R183, `CW = 0x7204` -/
  | intUnpackS8
  /-- INT.UNPACK.S16, rule R183, `CW = 0x7205` -/
  | intUnpackS16
  /-- INT.UNPACK.S32, rule R183, `CW = 0x7206` -/
  | intUnpackS32
  /-- STR.TRIM, rule R184, `CW = 0x7300` -/
  | strTrim
  /-- TIME.J2U, rule R185, `CW = 0x7400` -/
  | timeJ2u
  /-- TIME.U2J, rule R186, `CW = 0x7500` -/
  | timeU2j
deriving DecidableEq, Repr

/-- A request (30_encoding.md R60). -/
structure Request where
  /-- `CW`, the command word -/
  cw : CommandWord
  /-- `A`, the first scalar operand -/
  a : Operand
  /-- `B`, the second scalar operand -/
  b : Operand
  /-- `IN0`, the byte-string operand; byte 0 first (20_memory.md R42) -/
  in0 : List Byte
deriving DecidableEq, Repr

/-- What the host may do to the running block (70_reset_and_hazards.md R253): present a request, or reset the block between two
requests. (Configuring it comes before the first move: `Machine.State.instantiate`.) -/
inductive HostMove where
  /-- present a request (R253 "request") -/
  | request (r : Request)
  /-- the reset event (R230, R253 "reset") -/
  | reset
deriving DecidableEq, Repr

end Sys2Proof
end

