-- ==== Sys2Proof/WellFormed.lean ====
section
/-! DEFINITION. Well-formedness of a configuration (spec/00_scope.md R5) and of a request (30_encoding.md R60). An `Instr` has no
operand, so every `Instr` is well formed; what the command word leaves illegal is refused by Decode (R63, R64, R67). -/

namespace Sys2Proof

/-- A legacy magic is a byte string of length 1 to 8 (00_scope.md R5). -/
abbrev LegacyMagicOk (m : List Byte) : Prop := 1 ≤ m.length ∧ m.length ≤ 8

/-- The legacy reply lengths lie in 1 .. 65535 and are at least as long as the magic they start with (00_scope.md R5). -/
abbrev Config.LegacyLengthsOk (cfg : Config) : Prop :=
  ∀ n : Fin 256,
    1 ≤ cfg.replyLenOf (BitVec.ofFin n) ∧ cfg.replyLenOf (BitVec.ofFin n) ≤ 65535 ∧
      (cfg.legacyMagic (cfg.arrangementOf (BitVec.ofFin n))).length ≤ cfg.replyLenOf (BitVec.ofFin n)

/-- The well-formedness of a configuration (00_scope.md R5): the types of its parameters and the two conditions of R5. The
premise `cfg_wf` of 70_reset_and_hazards.md R237. -/
abbrev Config.WellFormed (cfg : Config) : Prop :=
  LegacyMagicOk cfg.legacyRxMagicA ∧ LegacyMagicOk cfg.legacyRxMagicB ∧ cfg.LegacyLengthsOk ∧ 32777 ≤ cfg.maxBuf

/-- A request as 30_encoding.md R60 defines it: `IN0` holds at most `MAX_BUF` bytes. The block answers a request outside this
definition too (60_exceptions.md R204). -/
abbrev Request.WellFormed (cfg : Config) (r : Request) : Prop := r.in0.length ≤ cfg.maxBuf

end Sys2Proof
end

