-- ==== Sys2Proof/Decode.lean ====
section
/-! DEFINITION. The command word (spec/30_encoding.md R62 to R69): a decoder, total on 16-bit words and rejecting by name, and an
encoder written from the same tables. -/

namespace Sys2Proof

/-- Why a command word is no operation (30_encoding.md R67; 60_exceptions.md R203). Both give the response `ILLEGAL_OP`. -/
inductive Illegal where
  /-- `OPC` is not assigned (R67). Safe: the spec gives the response. -/
  | reservedOpcode
  /-- `OPC` is assigned and `MOD` is not a value the operation allows (R63, R64). Safe: the spec gives the response. -/
  | reservedModifier
deriving DecidableEq, Repr

/-- `OPC = CW[15:8]` (R62). -/
def opcOf (cw : CommandWord) : Byte := cw.extractLsb' 8 8

/-- `MOD = CW[7:0]` (R62). -/
def modOf (cw : CommandWord) : Byte := cw.extractLsb' 0 8

/-- An operation without modifiers: `MOD` must be 0 (R64). -/
def decodePlain (m : Byte) (i : Instr) : Except Illegal Instr :=
  if m = 0 then .ok i else .error .reservedModifier

/-- The `MOD` of INT.WRAP, INT.PACK and INT.UNPACK (R63): `MOD[7:3]` must be 0, `MOD[1:0]` is the width code, `MOD[2]` the sign. -/
def decodeForm (m : Byte) (u8 u16 u32 s8 s16 s32 : Instr) : Except Illegal Instr :=
  if m.extractLsb' 3 5 ≠ 0 then .error .reservedModifier
  else
    match (m.extractLsb' 0 2).toNat, m.getLsbD 2 with
    | 0, false => .ok u8
    | 1, false => .ok u16
    | 2, false => .ok u32
    | 0, true => .ok s8
    | 1, true => .ok s16
    | 2, true => .ok s32
    | _, _ => .error .reservedModifier

/-- The operation a command word selects (R62, R66), or why it selects none (R67). -/
def decode (cw : CommandWord) : Except Illegal Instr :=
  let m := modOf cw
  match (opcOf cw).toNat with
  | 0x10 => decodePlain m .crc8Clr
  | 0x11 => decodePlain m .crc8Ld
  | 0x12 => decodePlain m .crc8Upd
  | 0x13 => decodePlain m .crc8Blk
  | 0x14 => decodePlain m .crc8Rd
  | 0x15 => decodePlain m .crc8Calc
  | 0x16 => decodePlain m .crc8Tbl
  | 0x20 => decodePlain m .crc16Clr
  | 0x21 => decodePlain m .crc16Ld
  | 0x22 => decodePlain m .crc16Upd
  | 0x23 => decodePlain m .crc16Blk
  | 0x24 => decodePlain m .crc16Rd
  | 0x25 => decodePlain m .crc16Calc
  | 0x26 => decodePlain m .crc16Tbl
  | 0x30 => decodePlain m .crc32Clr
  | 0x31 => decodePlain m .crc32Ld
  | 0x32 => decodePlain m .crc32Upd
  | 0x33 => decodePlain m .crc32Blk
  | 0x34 => decodePlain m .crc32Rd
  | 0x35 => decodePlain m .crc32Calc
  | 0x36 => decodePlain m .crc32Tbl
  | 0x40 => decodePlain m .lenEnc
  | 0x41 => decodePlain m .lenDec
  | 0x50 => decodePlain m .frmEncx
  | 0x51 => decodePlain m .frmEncl
  | 0x60 => decodePlain m .frmChkx
  | 0x61 => decodePlain m .frmRxlen
  | 0x62 => decodePlain m .frmChkl
  | 0x70 => decodeForm m .intWrapU8 .intWrapU16 .intWrapU32 .intWrapS8 .intWrapS16 .intWrapS32
  | 0x71 => decodeForm m .intPackU8 .intPackU16 .intPackU32 .intPackS8 .intPackS16 .intPackS32
  | 0x72 => decodeForm m .intUnpackU8 .intUnpackU16 .intUnpackU32 .intUnpackS8 .intUnpackS16 .intUnpackS32
  | 0x73 => decodePlain m .strTrim
  | 0x74 => decodePlain m .timeJ2u
  | 0x75 => decodePlain m .timeU2j
  | _ => .error .reservedOpcode

/-- The operation code of each operation (R66). -/
def Instr.opc : Instr → Byte
  | .crc8Clr => 0x10
  | .crc8Ld => 0x11
  | .crc8Upd => 0x12
  | .crc8Blk => 0x13
  | .crc8Rd => 0x14
  | .crc8Calc => 0x15
  | .crc8Tbl => 0x16
  | .crc16Clr => 0x20
  | .crc16Ld => 0x21
  | .crc16Upd => 0x22
  | .crc16Blk => 0x23
  | .crc16Rd => 0x24
  | .crc16Calc => 0x25
  | .crc16Tbl => 0x26
  | .crc32Clr => 0x30
  | .crc32Ld => 0x31
  | .crc32Upd => 0x32
  | .crc32Blk => 0x33
  | .crc32Rd => 0x34
  | .crc32Calc => 0x35
  | .crc32Tbl => 0x36
  | .lenEnc => 0x40
  | .lenDec => 0x41
  | .frmEncx => 0x50
  | .frmEncl => 0x51
  | .frmChkx => 0x60
  | .frmRxlen => 0x61
  | .frmChkl => 0x62
  | .intWrapU8 => 0x70
  | .intWrapU16 => 0x70
  | .intWrapU32 => 0x70
  | .intWrapS8 => 0x70
  | .intWrapS16 => 0x70
  | .intWrapS32 => 0x70
  | .intPackU8 => 0x71
  | .intPackU16 => 0x71
  | .intPackU32 => 0x71
  | .intPackS8 => 0x71
  | .intPackS16 => 0x71
  | .intPackS32 => 0x71
  | .intUnpackU8 => 0x72
  | .intUnpackU16 => 0x72
  | .intUnpackU32 => 0x72
  | .intUnpackS8 => 0x72
  | .intUnpackS16 => 0x72
  | .intUnpackS32 => 0x72
  | .strTrim => 0x73
  | .timeJ2u => 0x74
  | .timeU2j => 0x75

/-- The modifier of each operation (R63, R64). -/
def Instr.modifier : Instr → Byte
  | .crc8Clr => 0x00
  | .crc8Ld => 0x00
  | .crc8Upd => 0x00
  | .crc8Blk => 0x00
  | .crc8Rd => 0x00
  | .crc8Calc => 0x00
  | .crc8Tbl => 0x00
  | .crc16Clr => 0x00
  | .crc16Ld => 0x00
  | .crc16Upd => 0x00
  | .crc16Blk => 0x00
  | .crc16Rd => 0x00
  | .crc16Calc => 0x00
  | .crc16Tbl => 0x00
  | .crc32Clr => 0x00
  | .crc32Ld => 0x00
  | .crc32Upd => 0x00
  | .crc32Blk => 0x00
  | .crc32Rd => 0x00
  | .crc32Calc => 0x00
  | .crc32Tbl => 0x00
  | .lenEnc => 0x00
  | .lenDec => 0x00
  | .frmEncx => 0x00
  | .frmEncl => 0x00
  | .frmChkx => 0x00
  | .frmRxlen => 0x00
  | .frmChkl => 0x00
  | .intWrapU8 => 0x00
  | .intWrapU16 => 0x01
  | .intWrapU32 => 0x02
  | .intWrapS8 => 0x04
  | .intWrapS16 => 0x05
  | .intWrapS32 => 0x06
  | .intPackU8 => 0x00
  | .intPackU16 => 0x01
  | .intPackU32 => 0x02
  | .intPackS8 => 0x04
  | .intPackS16 => 0x05
  | .intPackS32 => 0x06
  | .intUnpackU8 => 0x00
  | .intUnpackU16 => 0x01
  | .intUnpackU32 => 0x02
  | .intUnpackS8 => 0x04
  | .intUnpackS16 => 0x05
  | .intUnpackS32 => 0x06
  | .strTrim => 0x00
  | .timeJ2u => 0x00
  | .timeU2j => 0x00

/-- The command word of an operation: `OPC` in `CW[15:8]`, `MOD` in `CW[7:0]` (R62). -/
def encode (i : Instr) : CommandWord := i.opc ++ i.modifier

/-- The command word whose bits are `w`, of which the table gives the low `nbits`; the bits above `nbits` are 0. There is one
length, 16 bits (R69), and a command word is no byte string, so no byte order enters (notes entry 16). -/
def tableCommandWord (nbits w : Nat) : CommandWord := BitVec.ofNat 16 (w % 2 ^ nbits)

/-- The operation the decoder reads from a row of spec/opcode_table.json. A number with a bit at or above bit 16 is no command
word (R69). -/
def decodeTableWord (nbits w : Nat) : Option Instr :=
  if w % 2 ^ nbits < 2 ^ 16 then (decode (tableCommandWord nbits w)).toOption else none

/-! One word of each operation, written out from the encoding table of R66 (and R63 for the forms of INT). -/

theorem decode_crc8Clr : decode 0x1000 = .ok .crc8Clr := by decide
theorem decode_crc8Ld : decode 0x1100 = .ok .crc8Ld := by decide
theorem decode_crc8Upd : decode 0x1200 = .ok .crc8Upd := by decide
theorem decode_crc8Blk : decode 0x1300 = .ok .crc8Blk := by decide
theorem decode_crc8Rd : decode 0x1400 = .ok .crc8Rd := by decide
theorem decode_crc8Calc : decode 0x1500 = .ok .crc8Calc := by decide
theorem decode_crc8Tbl : decode 0x1600 = .ok .crc8Tbl := by decide
theorem decode_crc16Clr : decode 0x2000 = .ok .crc16Clr := by decide
theorem decode_crc16Ld : decode 0x2100 = .ok .crc16Ld := by decide
theorem decode_crc16Upd : decode 0x2200 = .ok .crc16Upd := by decide
theorem decode_crc16Blk : decode 0x2300 = .ok .crc16Blk := by decide
theorem decode_crc16Rd : decode 0x2400 = .ok .crc16Rd := by decide
theorem decode_crc16Calc : decode 0x2500 = .ok .crc16Calc := by decide
theorem decode_crc16Tbl : decode 0x2600 = .ok .crc16Tbl := by decide
theorem decode_crc32Clr : decode 0x3000 = .ok .crc32Clr := by decide
theorem decode_crc32Ld : decode 0x3100 = .ok .crc32Ld := by decide
theorem decode_crc32Upd : decode 0x3200 = .ok .crc32Upd := by decide
theorem decode_crc32Blk : decode 0x3300 = .ok .crc32Blk := by decide
theorem decode_crc32Rd : decode 0x3400 = .ok .crc32Rd := by decide
theorem decode_crc32Calc : decode 0x3500 = .ok .crc32Calc := by decide
theorem decode_crc32Tbl : decode 0x3600 = .ok .crc32Tbl := by decide
theorem decode_lenEnc : decode 0x4000 = .ok .lenEnc := by decide
theorem decode_lenDec : decode 0x4100 = .ok .lenDec := by decide
theorem decode_frmEncx : decode 0x5000 = .ok .frmEncx := by decide
theorem decode_frmEncl : decode 0x5100 = .ok .frmEncl := by decide
theorem decode_frmChkx : decode 0x6000 = .ok .frmChkx := by decide
theorem decode_frmRxlen : decode 0x6100 = .ok .frmRxlen := by decide
theorem decode_frmChkl : decode 0x6200 = .ok .frmChkl := by decide
theorem decode_intWrapU8 : decode 0x7000 = .ok .intWrapU8 := by decide
theorem decode_intWrapU16 : decode 0x7001 = .ok .intWrapU16 := by decide
theorem decode_intWrapU32 : decode 0x7002 = .ok .intWrapU32 := by decide
theorem decode_intWrapS8 : decode 0x7004 = .ok .intWrapS8 := by decide
theorem decode_intWrapS16 : decode 0x7005 = .ok .intWrapS16 := by decide
theorem decode_intWrapS32 : decode 0x7006 = .ok .intWrapS32 := by decide
theorem decode_intPackU8 : decode 0x7100 = .ok .intPackU8 := by decide
theorem decode_intPackU16 : decode 0x7101 = .ok .intPackU16 := by decide
theorem decode_intPackU32 : decode 0x7102 = .ok .intPackU32 := by decide
theorem decode_intPackS8 : decode 0x7104 = .ok .intPackS8 := by decide
theorem decode_intPackS16 : decode 0x7105 = .ok .intPackS16 := by decide
theorem decode_intPackS32 : decode 0x7106 = .ok .intPackS32 := by decide
theorem decode_intUnpackU8 : decode 0x7200 = .ok .intUnpackU8 := by decide
theorem decode_intUnpackU16 : decode 0x7201 = .ok .intUnpackU16 := by decide
theorem decode_intUnpackU32 : decode 0x7202 = .ok .intUnpackU32 := by decide
theorem decode_intUnpackS8 : decode 0x7204 = .ok .intUnpackS8 := by decide
theorem decode_intUnpackS16 : decode 0x7205 = .ok .intUnpackS16 := by decide
theorem decode_intUnpackS32 : decode 0x7206 = .ok .intUnpackS32 := by decide
theorem decode_strTrim : decode 0x7300 = .ok .strTrim := by decide
theorem decode_timeJ2u : decode 0x7400 = .ok .timeJ2u := by decide
theorem decode_timeU2j : decode 0x7500 = .ok .timeU2j := by decide

end Sys2Proof
end

