-- ==== Sys2Proof/Machine/Device.lean ====
section
/-! DEFINITION. The values of the configuration: the ones spec/00_scope.md R5 fixes for this hardware, the OPEN ones by name, and the
reference configuration RC of R8 that the vectors of 95_test_vectors.md use. -/

namespace Sys2Proof.Machine

/-- `CRC16_POLY`, `CRC16_INIT`, `CRC16_XOROUT` (00_scope.md R5; 92 D12). Notes entry 3. -/
def deviceCrc16 : CrcParams 16 := ⟨0x1021, 0x0000, 0x0000⟩

/-- `RX_STRICT_LENGTH` (00_scope.md R5; 92 D10). Notes entry 3. -/
def deviceStrictLength : Bool := true

/-- `MAX_BUF` (00_scope.md R5; 92 D22). Notes entry 3. -/
def deviceMaxBuf : Nat := 65536

/-- A legacy magic of this hardware: an OPEN byte string of length 1 to 8 (00_scope.md R5). -/
def openMagic (m : Byte × List Byte) : List Byte := m.1 :: m.2.take 7

/-- The magic of arrangement `X` of this hardware. -/
def deviceLegacyMagic : Arrangement → List Byte
  | .a => openMagic Config.openLegacyMagicA
  | .b => openMagic Config.openLegacyMagicB

/-- `LEGACY_REPLY_LEN(c)` of this hardware: an OPEN number, at least as long as the magic and at most 65535 (00_scope.md R5).
Every function of that range is one of the values this may have. Notes entry 2. -/
def deviceReplyLen (c : Byte) : Nat :=
  min 65535 (max (deviceLegacyMagic (Config.openLegacyArrangement c)).length (Config.openLegacyReplyLen c))

/-- The configuration of this hardware (00_scope.md R5, column "value for this hardware"): OPEN parameters stay uninterpreted. -/
def deviceConfig : Config where
  txMagic := Config.openTxMagic
  rxMagic := Config.openRxMagic
  rxExtCmd := Config.openRxExtCmd
  rxLayout := Config.openRxLayout
  rxEnvelopeOverhead := Config.openRxEnvelopeOverhead
  rxStrictLength := deviceStrictLength
  crc8 := Config.openCrc8
  crc16 := deviceCrc16
  crc32 := Config.openCrc32
  legacyArrangement := byteTable Config.openLegacyArrangement
  legacyRxMagicA := deviceLegacyMagic .a
  legacyRxMagicB := deviceLegacyMagic .b
  legacyReplyLen := byteTable deviceReplyLen
  maxBuf := deviceMaxBuf

/-- The parameters whose value 00_scope.md R5 fixes for this hardware hold that value. -/
def fixedForThisHardware (cfg : Config) : Prop :=
  cfg.crc16 = deviceCrc16 ∧ cfg.rxStrictLength = deviceStrictLength ∧ cfg.maxBuf = deviceMaxBuf

/-- The reference configuration RC (00_scope.md R8): no claim about a device, the configuration of the spec's own vectors. -/
def referenceConfig : Config where
  txMagic := #v[0xC9, 0x36, 0xB8, 0x47]
  rxMagic := #v[0xAA, 0x55]
  rxExtCmd := 0x56
  rxLayout := .lenThenInner
  rxEnvelopeOverhead := 4
  rxStrictLength := deviceStrictLength
  crc8 := ⟨0x07, 0, 0⟩
  crc16 := deviceCrc16
  crc32 := ⟨0x04C11DB7, 0, 0⟩
  legacyArrangement := byteTable fun c => if c.getLsbD 0 then .b else .a
  legacyRxMagicA := [0xAA, 0x55]
  legacyRxMagicB := [0x55, 0xAA]
  legacyReplyLen := byteTable fun _ => 6
  maxBuf := deviceMaxBuf

end Sys2Proof.Machine
end

