-- ==== Sys2Proof/Machine/State.lean ====
section
/-! DEFINITION. What the block holds (spec/10_state.md), what a step can stop with, and the state after reset
(70_reset_and_hazards.md R230). -/

namespace Sys2Proof.Machine

/-- The status codes of 60_exceptions.md R201. Their 8-bit values are `Status.code`. -/
inductive Status where
  /-- `OK`: the operation completed -/
  | ok
  /-- `NEED_MORE`: the bytes so far are too few to answer yet -/
  | needMore
  /-- `ILLEGAL_OP`: a reserved `OPC` or a `MOD` the operation does not allow -/
  | illegalOp
  /-- `OPERAND_RANGE`: an operand is outside the range the operation accepts -/
  | operandRange
  /-- `INVALID_SHORT`: the byte string is too short to hold the field or frame -/
  | invalidShort
  /-- `INVALID_MAGIC`: the magic bytes of a reply are wrong -/
  | invalidMagic
  /-- `INVALID_CMD`: byte 2 of a reply is not `RX_EXT_CMD` -/
  | invalidCmd
  /-- `INVALID_CRC`: the CRC16 trailer does not match -/
  | invalidCrc
  /-- `INVALID_LENGTH`: the declared length does not match the frame length -/
  | invalidLength
deriving DecidableEq, Repr

/-- A response (30_encoding.md R61). -/
structure Response where
  /-- `STATUS` -/
  status : Status
  /-- `R0` -/
  r0 : Scalar
  /-- `R1` -/
  r1 : Scalar
  /-- `OUT`; byte 0 first (20_memory.md R42) -/
  out : List Byte
deriving DecidableEq, Repr

/-- Why the machine would stop with a fault: never. Every operation completes and reports its failure in `STATUS`
(60_exceptions.md R200, R211; 70_reset_and_hazards.md R237 "The block has no fault state", R251), so there is no constructor.
Safe: nothing stops. -/
inductive Fault where
deriving DecidableEq, Repr

/-- Why the model has no meaning for something it is given. -/
inductive Refusal where
  /-- an operation that has no meaning yet; raised by no arm of `exec`. Safe: nothing can be proved of a refused operation. -/
  | notModelled (mnemonic : String)
  /-- raised by `State.instantiate` for a configuration that is not well formed (00_scope.md R5: "A model refuses a configuration
  that is not well formed"; 93 U7). Safe: no machine is made. -/
  | illFormedConfiguration
deriving DecidableEq, Repr

/-- The state of the block: the configuration it was instantiated with, the three CRC accumulators, its request and response
ports, and the moves its host has still to make. -/
structure State where
  /-- the configuration (00_scope.md R5): no step changes it (10_state.md R24, R29) -/
  cfg : Config
  /-- `ACC8` (10_state.md R20), the raw running register -/
  acc8 : BitVec 8
  /-- `ACC16` (10_state.md R20), the raw running register -/
  acc16 : BitVec 16
  /-- `ACC32` (10_state.md R20), the raw running register -/
  acc32 : BitVec 32
  /-- the request port (30_encoding.md R60): the request being served; not persistent (10_state.md R25) -/
  request : Request
  /-- the response port (30_encoding.md R61): the response to the last request, none before the first one after reset
  (70_reset_and_hazards.md R232); no operation reads it (10_state.md R22, R25) -/
  response : Option Response
  /-- the moves the host has not made yet, in order (20_memory.md R50; 70_reset_and_hazards.md R253, R254). Notes entry 4. -/
  host : List HostMove
deriving DecidableEq, Repr

/-- The launch state of a configuration (70_reset_and_hazards.md R230, R237): every accumulator at its initial value, no response,
the request port idle. -/
def State.launch (cfg : Config) : State where
  cfg := cfg
  acc8 := cfg.crc8.init
  acc16 := cfg.crc16.init
  acc32 := cfg.crc32.init
  request := ⟨0, 0, 0, []⟩
  response := none
  host := []

/-- The machine right after reset (10_state.md R29; 70_reset_and_hazards.md R230), instantiated with this hardware's
configuration. -/
def State.reset : State := State.launch deviceConfig

end Sys2Proof.Machine
end

