-- ==== Sys2Proof/Machine/Bits.lean ====
section
/-! DEFINITION. Bit fields, extension and byte order (spec/00_scope.md R9, R10; 20_memory.md R43 to R45). -/

namespace Sys2Proof.Machine

/-- `zext_64(v)` (R9). The spec gives it for `v < 2^64` only; for a larger value the result is free (notes entry 8). -/
def zext64 (v : Nat) : Scalar := if v < 2 ^ 64 then BitVec.ofNat 64 v else Config.freeScalar v

/-- `be16(v)`: the high byte first (R10; 20_memory.md R45). -/
def be16 (v : BitVec 16) : List Byte := [v.extractLsb' 8 8, v.extractLsb' 0 8]

/-- `le_w(v)` for `w = n`: the `n` low bytes of `v`, the least significant first (R10; 20_memory.md R43). -/
def leBytes : Nat → Operand → List Byte
  | 0, _ => []
  | n + 1, v => v.extractLsb' 0 8 :: leBytes n (v >>> 8)

/-- The sum over `j` of `s[j] << (8 j)` (44_field_codec.md R183): the number a little-endian field holds. -/
def fromLe : List Byte → Nat
  | [] => 0
  | b :: s => b.toNat + 2 ^ 8 * fromLe s

/-- `s[i]` (R10). Every rule checks the length first (R11), so the value past the end is never used (notes entry 12). -/
def byteAt (s : List Byte) (i : Nat) : Byte := s.getD i 0

/-- `s[i..j)` (R10). -/
def slice (s : List Byte) (i j : Nat) : List Byte := (s.drop i).take (j - i)

/-- A 16-bit value from its high and its low byte: `(hi << 8) | lo` (43_frame_decode.md R161). -/
def word16 (hi lo : Byte) : BitVec 16 := (hi.setWidth 16 <<< 8) ||| lo.setWidth 16

/-- The width code `WC` of the INT operations (30_encoding.md R63). -/
inductive IntWidth where
  /-- `WC = 0`: 1 byte -/
  | one
  /-- `WC = 1`: 2 bytes -/
  | two
  /-- `WC = 2`: 4 bytes -/
  | four
deriving DecidableEq, Repr

/-- The byte count `w = 2^WC` (30_encoding.md R63). -/
def IntWidth.bytes : IntWidth → Nat
  | .one => 1
  | .two => 2
  | .four => 4

/-- The bit width `8w` (30_encoding.md R63). -/
def IntWidth.bits (w : IntWidth) : Nat := 8 * w.bytes

/-- `Get()` of a FixedWidthInt (44_field_codec.md R180): the stored bits read as unsigned (`zext_64`) or, when `signed`, as two's
complement (`sext_64`, 00_scope.md R9). -/
def readFixed {n : Nat} (signed : Bool) (v : BitVec n) : Scalar := if signed then v.signExtend 64 else v.setWidth 64

end Sys2Proof.Machine
end

