-- ==== Sys2Proof/Machine/Crc.lean ====
section
/-! DEFINITION. The table-driven CRC of one engine of width `w` (spec/40_crc_engines.md R100 to R104), the same for all three
widths: bytes in order, the most significant bit of a byte first, no reflection. -/

namespace Sys2Proof.Machine

/-- One turn of the loop of R101: shift left by one, and exclusive-or the polynomial if the bit shifted out was 1. -/
def crcShift {w : Nat} (poly r : BitVec w) : BitVec w := if r.msb then (r <<< 1) ^^^ poly else r <<< 1

/-- `n` turns of the loop of R101. -/
def crcShifts {w : Nat} (poly : BitVec w) : Nat → BitVec w → BitVec w
  | 0, r => r
  | n + 1, r => crcShifts poly n (crcShift poly r)

/-- The table ROM entry `TW[i]` (R101; 10_state.md R21): the index in the top byte, then 8 turns. -/
def crcTable {w : Nat} (poly : BitVec w) (i : Byte) : BitVec w := crcShifts poly 8 (i.setWidth w <<< (w - 8))

/-- `crc_step_W(acc, b)` (R102). -/
def crcStep {w : Nat} (poly acc : BitVec w) (b : Byte) : BitVec w :=
  (acc <<< 8) ^^^ crcTable poly ((acc >>> (w - 8)).setWidth 8 ^^^ b)

/-- The loop of R103 and of the BLK operations (R113, R120, R127): the accumulator after the bytes of `s`, in order. -/
def crcFeed {w : Nat} (poly : BitVec w) : BitVec w → List Byte → BitVec w
  | acc, [] => acc
  | acc, b :: s => crcFeed poly (crcStep poly acc b) s

/-- `crc_W(s)` (R103): from the initial value, with the final exclusive-or. -/
def crc {w : Nat} (p : CrcParams w) (s : List Byte) : BitVec w := crcFeed p.poly p.init s ^^^ p.xorOut

end Sys2Proof.Machine
end

