-- ==== Sys2Proof/Machine/Operands.lean ====
section
/-! DEFINITION. The operands an operation takes from its request (spec/30_encoding.md R65): which bits of `A` and `B` it uses. The
bits it does not name are dropped without a status (60_exceptions.md R205). -/

namespace Sys2Proof.Machine

/-- `A`, whole: CRCW.TBL, LEN.ENC, TIME.J2U, TIME.U2J. -/
def State.opA (s : State) : Operand := s.request.a

/-- `A[7:0]`: the data byte of CRCW.UPD, the outer command of FRM.ENCX, the legacy command of FRM.ENCL and FRM.CHKL. -/
def State.opByte (s : State) : Byte := s.request.a.extractLsb' 0 8

/-- `A[15:8]`: the inner command of FRM.ENCX. -/
def State.opInner (s : State) : Byte := s.request.a.extractLsb' 8 8

/-- `B[15:0]`: the expected reply length of FRM.ENCX (30_encoding.md R75), read by `expectedReply` (Machine/FrameEncode.lean). -/
def State.opExpected (s : State) : BitVec 16 := s.request.b.extractLsb' 0 16

/-- `A[W-1:0]`: the seed of CRCW.LD; `A[8w-1:0]`: the value of INT.WRAP and INT.PACK. -/
def State.opLow (s : State) (n : Nat) : BitVec n := s.request.a.setWidth n

/-- `IN0`: the byte-string operand. -/
def State.opIn (s : State) : List Byte := s.request.in0

end Sys2Proof.Machine
end

