-- ==== Sys2Proof/Machine/Flags.lean ====
section
/-! DEFINITION. The block has no flags (spec/10_state.md R22). This file holds what stands in their place: the status codes, and
the conditions that decide a status and are shared by several rules (60_exceptions.md R201 to R206). -/

namespace Sys2Proof.Machine

/-- The 8-bit value of a status (60_exceptions.md R201). -/
def Status.code : Status → BitVec 8
  | .ok => 0x00
  | .needMore => 0x01
  | .illegalOp => 0x80
  | .operandRange => 0x81
  | .invalidShort => 0x90
  | .invalidMagic => 0x91
  | .invalidCmd => 0x92
  | .invalidCrc => 0x93
  | .invalidLength => 0x94

/-- `|IN0| > MAX_BUF` (60_exceptions.md R204). -/
def State.inputTooLong (s : State) : Bool := s.cfg.maxBuf < s.opIn.length

/-- A byte string of at least 2 bytes has a correct trailer (43_frame_decode.md R161): the CRC16 of the bytes before the last 2
equals those 2, read most significant first. -/
def hasCorrectTrailer (cfg : Config) (s : List Byte) : Bool :=
  crc cfg.crc16 (slice s 0 (s.length - 2)) == word16 (byteAt s (s.length - 2)) (byteAt s (s.length - 1))

end Sys2Proof.Machine
end

