-- ==== Sys2Proof/Machine/Ops.lean ====
section
/-! DEFINITION. The operations every meaning is made of: writing an accumulator, giving the response, raising a status in place of
taking an exception, the buffer check, and what the host does to the block between operations. -/

namespace Sys2Proof.Machine

/-- The response of an operation that completes: `STATUS = OK`; the fields a rule does not name keep 0, 0 and `[]`
(spec/00_scope.md R12). -/
def Response.done (r0 : Scalar) (r1 : Scalar := 0) (out : List Byte := []) : Response := ⟨.ok, r0, r1, out⟩

/-- The response of an operation that raises a status: `R0 = 0`, `R1 = 0`, `OUT = []` (00_scope.md R11, R12; `NEED_MORE` too,
60_exceptions.md R202). -/
def Response.raised (status : Status) : Response := ⟨status, 0, 0, []⟩

/-- `ACC8 <- v` (00_scope.md R11). -/
def State.setAcc8 (s : State) (v : BitVec 8) : State := { s with acc8 := v }

/-- `ACC16 <- v` (00_scope.md R11). -/
def State.setAcc16 (s : State) (v : BitVec 16) : State := { s with acc16 := v }

/-- `ACC32 <- v` (00_scope.md R11). -/
def State.setAcc32 (s : State) (v : BitVec 32) : State := { s with acc32 := v }

/-- Put a response on the response port, in place of the one before (10_state.md R25). -/
def State.respond (s : State) (r : Response) : State := { s with response := some r }

/-- `raise S` (00_scope.md R11). This is all the block has in place of taking an exception: the response carries the status and
nothing else is written, saved or vectored (60_exceptions.md R200, R202, R211). There is nothing to return from (R212). -/
def State.raise (s : State) (status : Status) : State := s.respond (.raised status)

/-- The check every assigned operation makes first: `OPERAND_RANGE` if `|IN0| > MAX_BUF`, whether it reads `IN0` or not, before
every check of its own (60_exceptions.md R204, R208). -/
def State.checked (s : State) (completed : State) : State := if s.inputTooLong then s.raise .operandRange else completed

/-- The next request is presented: it is on the request port, and the host has `rest` still to do (20_memory.md R50). -/
def State.present (s : State) (r : Request) (rest : List HostMove) : State := { s with request := r, host := rest }

/-- A request that selects no operation (30_encoding.md R67; 60_exceptions.md R203). -/
def State.rejectIllegal (s : State) : State := s.raise .illegalOp

/-- The reset event (70_reset_and_hazards.md R230): every accumulator at its initial value. There is no response after it
(R232; notes entry 6), and nothing else changes. -/
def State.applyReset (s : State) : State :=
  { s with acc8 := s.cfg.crc8.init, acc16 := s.cfg.crc16.init, acc32 := s.cfg.crc32.init, response := none }

/-- The host has `rest` still to do. -/
def State.withHost (s : State) (rest : List HostMove) : State := { s with host := rest }

/-- Between requests the block is idle and holds its state (60_exceptions.md R217; notes entry 5). -/
def State.idle (s : State) : State := s

/-- The host configures the block (70_reset_and_hazards.md R235, R253) and resets it: the launch state, or a refusal where the
configuration is not well formed (00_scope.md R5; 93 U7). -/
def State.instantiate (cfg : Config) : Host.Outcome State Fault Refusal :=
  if cfg.WellFormed then .next (State.launch cfg) else .refused .illFormedConfiguration

end Sys2Proof.Machine
end

