-- ==== Sys2Proof/Machine/CrcEngines.lean ====
section
/-! DEFINITION. The 21 operations of the CRC8, CRC16 and CRC32 engines (spec/40_crc_engines.md R108 to R130). They write no `OUT` and
no `R1` (R108); an operation of one engine touches the accumulator of that engine alone (R108, 10_state.md R20). -/

namespace Sys2Proof.Machine

/-- `zext_64` of a CRC register. -/
def crcResult {w : Nat} (v : BitVec w) : Response := .done (v.setWidth 64)

/-- The accumulator after CRCW.BLK: every byte of `IN0`, in order (R113, R120, R127). -/
def State.blockFed {w : Nat} (s : State) (p : CrcParams w) (acc : BitVec w) : BitVec w := crcFeed p.poly acc s.opIn

/-- The response of CRCW.TBL: the index is checked whole (R116, R123, R130; 60_exceptions.md R205). -/
def tableRead {w : Nat} (p : CrcParams w) (a : Operand) : Response :=
  if 255 < a.toNat then .raised .operandRange else crcResult (crcTable p.poly (a.setWidth 8))

/-- CRC8.CLR (R110): `ACC8 <- CRC8_INIT`. -/
def execCrc8Clr (s : State) : Host.Outcome State Fault Refusal :=
  .next (s.checked ((s.setAcc8 s.cfg.crc8.init).respond (crcResult s.cfg.crc8.init)))

/-- CRC8.LD (R111): `ACC8 <- A[7:0]`, a raw register value. -/
def execCrc8Ld (s : State) : Host.Outcome State Fault Refusal :=
  .next (s.checked ((s.setAcc8 (s.opLow 8)).respond (crcResult (s.opLow 8))))

/-- CRC8.UPD (R112): one data byte, `A[7:0]`. -/
def execCrc8Upd (s : State) : Host.Outcome State Fault Refusal :=
  .next (s.checked ((s.setAcc8 (crcStep s.cfg.crc8.poly s.acc8 s.opByte)).respond (crcResult (crcStep s.cfg.crc8.poly s.acc8 s.opByte))))

/-- CRC8.BLK (R113): every byte of `IN0`. -/
def execCrc8Blk (s : State) : Host.Outcome State Fault Refusal :=
  .next (s.checked ((s.setAcc8 (s.blockFed s.cfg.crc8 s.acc8)).respond (crcResult (s.blockFed s.cfg.crc8 s.acc8))))

/-- CRC8.RD (R114): the finished CRC; nothing is written. -/
def execCrc8Rd (s : State) : Host.Outcome State Fault Refusal :=
  .next (s.checked (s.respond (crcResult (s.acc8 ^^^ s.cfg.crc8.xorOut))))

/-- CRC8.CALC (R115): `crc_8(IN0)`; nothing is written. -/
def execCrc8Calc (s : State) : Host.Outcome State Fault Refusal :=
  .next (s.checked (s.respond (crcResult (crc s.cfg.crc8 s.opIn))))

/-- CRC8.TBL (R116): one table entry; nothing is written. -/
def execCrc8Tbl (s : State) : Host.Outcome State Fault Refusal :=
  .next (s.checked (s.respond (tableRead s.cfg.crc8 s.opA)))

/-- CRC16.CLR (R117): `ACC16 <- CRC16_INIT`. -/
def execCrc16Clr (s : State) : Host.Outcome State Fault Refusal :=
  .next (s.checked ((s.setAcc16 s.cfg.crc16.init).respond (crcResult s.cfg.crc16.init)))

/-- CRC16.LD (R118): `ACC16 <- A[15:0]`, a raw register value. -/
def execCrc16Ld (s : State) : Host.Outcome State Fault Refusal :=
  .next (s.checked ((s.setAcc16 (s.opLow 16)).respond (crcResult (s.opLow 16))))

/-- CRC16.UPD (R119): one data byte, `A[7:0]`. -/
def execCrc16Upd (s : State) : Host.Outcome State Fault Refusal :=
  .next (s.checked ((s.setAcc16 (crcStep s.cfg.crc16.poly s.acc16 s.opByte)).respond (crcResult (crcStep s.cfg.crc16.poly s.acc16 s.opByte))))

/-- CRC16.BLK (R120): every byte of `IN0`. -/
def execCrc16Blk (s : State) : Host.Outcome State Fault Refusal :=
  .next (s.checked ((s.setAcc16 (s.blockFed s.cfg.crc16 s.acc16)).respond (crcResult (s.blockFed s.cfg.crc16 s.acc16))))

/-- CRC16.RD (R121): the finished CRC; nothing is written. -/
def execCrc16Rd (s : State) : Host.Outcome State Fault Refusal :=
  .next (s.checked (s.respond (crcResult (s.acc16 ^^^ s.cfg.crc16.xorOut))))

/-- CRC16.CALC (R122): `crc_16(IN0)`; nothing is written. -/
def execCrc16Calc (s : State) : Host.Outcome State Fault Refusal :=
  .next (s.checked (s.respond (crcResult (crc s.cfg.crc16 s.opIn))))

/-- CRC16.TBL (R123): one table entry; nothing is written. -/
def execCrc16Tbl (s : State) : Host.Outcome State Fault Refusal :=
  .next (s.checked (s.respond (tableRead s.cfg.crc16 s.opA)))

/-- CRC32.CLR (R124): `ACC32 <- CRC32_INIT`. -/
def execCrc32Clr (s : State) : Host.Outcome State Fault Refusal :=
  .next (s.checked ((s.setAcc32 s.cfg.crc32.init).respond (crcResult s.cfg.crc32.init)))

/-- CRC32.LD (R125): `ACC32 <- A[31:0]`, a raw register value. -/
def execCrc32Ld (s : State) : Host.Outcome State Fault Refusal :=
  .next (s.checked ((s.setAcc32 (s.opLow 32)).respond (crcResult (s.opLow 32))))

/-- CRC32.UPD (R126): one data byte, `A[7:0]`. -/
def execCrc32Upd (s : State) : Host.Outcome State Fault Refusal :=
  .next (s.checked ((s.setAcc32 (crcStep s.cfg.crc32.poly s.acc32 s.opByte)).respond (crcResult (crcStep s.cfg.crc32.poly s.acc32 s.opByte))))

/-- CRC32.BLK (R127): every byte of `IN0`. -/
def execCrc32Blk (s : State) : Host.Outcome State Fault Refusal :=
  .next (s.checked ((s.setAcc32 (s.blockFed s.cfg.crc32 s.acc32)).respond (crcResult (s.blockFed s.cfg.crc32 s.acc32))))

/-- CRC32.RD (R128): the finished CRC; nothing is written. -/
def execCrc32Rd (s : State) : Host.Outcome State Fault Refusal :=
  .next (s.checked (s.respond (crcResult (s.acc32 ^^^ s.cfg.crc32.xorOut))))

/-- CRC32.CALC (R129): `crc_32(IN0)`; nothing is written. -/
def execCrc32Calc (s : State) : Host.Outcome State Fault Refusal :=
  .next (s.checked (s.respond (crcResult (crc s.cfg.crc32 s.opIn))))

/-- CRC32.TBL (R130): one table entry; nothing is written. -/
def execCrc32Tbl (s : State) : Host.Outcome State Fault Refusal :=
  .next (s.checked (s.respond (tableRead s.cfg.crc32 s.opA)))

end Sys2Proof.Machine
end

