-- ==== Sys2Proof/Machine/FieldCodec.lean ====
section
/-! DEFINITION. The field codec (spec/44_field_codec.md R180 to R187): fixed-width integers, padded strings, timestamps. -/

namespace Sys2Proof.Machine

/-- The response of INT.WRAP (R181): `A[8w-1:0]` read back. -/
def State.wrapped (s : State) (w : IntWidth) (signed : Bool) : Response := .done (readFixed signed (s.opLow w.bits))

/-- The response of INT.PACK (R182): `le_w(A[8w-1:0])`. The sign does not change the bytes. -/
def State.packed (s : State) (w : IntWidth) : Response := .done (zext64 w.bytes) 0 (leBytes w.bytes s.opA)

/-- The response of INT.UNPACK (R183): the first `w` bytes of `IN0`, little-endian; bytes after them are ignored. -/
def State.unpacked (s : State) (w : IntWidth) (signed : Bool) : Response :=
  if s.opIn.length < w.bytes then .raised .invalidShort
  else .done (readFixed signed (BitVec.ofNat w.bits (fromLe (s.opIn.take w.bytes))))

/-- The bytes before the first null byte, all of them if there is none (R184). -/
def trimAtNull : List Byte → List Byte
  | [] => []
  | b :: s => if b = 0 then [] else b :: trimAtNull s

/-- The response of STR.TRIM (R184). -/
def trimmed (f : List Byte) : Response := .done (zext64 (trimAtNull f).length) 0 (trimAtNull f)

/-- `J2000_OFFSET` (00_scope.md R7; R187). -/
def j2000Offset : Nat := 946684800

/-- The response of TIME.J2U (R185): a 64-bit sum with no wrap. -/
def unixOfJ2000 (a : Operand) : Response := .done (a.setWidth 64 + BitVec.ofNat 64 j2000Offset)

/-- The response of TIME.U2J (R186). -/
def j2000OfUnix (a : Operand) : Response :=
  if a.toNat < j2000Offset then .raised .operandRange else .done (zext64 (a.toNat - j2000Offset))

/-- INT.WRAP.U8 (R181): truncate `A` to the u8 form and read it back. -/
def execIntWrapU8 (s : State) : Host.Outcome State Fault Refusal := .next (s.checked (s.respond (s.wrapped .one false)))

/-- INT.WRAP.U16 (R181): truncate `A` to the u16 form and read it back. -/
def execIntWrapU16 (s : State) : Host.Outcome State Fault Refusal := .next (s.checked (s.respond (s.wrapped .two false)))

/-- INT.WRAP.U32 (R181): truncate `A` to the u32 form and read it back. -/
def execIntWrapU32 (s : State) : Host.Outcome State Fault Refusal := .next (s.checked (s.respond (s.wrapped .four false)))

/-- INT.WRAP.S8 (R181): truncate `A` to the s8 form and read it back. -/
def execIntWrapS8 (s : State) : Host.Outcome State Fault Refusal := .next (s.checked (s.respond (s.wrapped .one true)))

/-- INT.WRAP.S16 (R181): truncate `A` to the s16 form and read it back. -/
def execIntWrapS16 (s : State) : Host.Outcome State Fault Refusal := .next (s.checked (s.respond (s.wrapped .two true)))

/-- INT.WRAP.S32 (R181): truncate `A` to the s32 form and read it back. -/
def execIntWrapS32 (s : State) : Host.Outcome State Fault Refusal := .next (s.checked (s.respond (s.wrapped .four true)))

/-- INT.PACK.U8 (R182): write `A` as a little-endian u8 field. -/
def execIntPackU8 (s : State) : Host.Outcome State Fault Refusal := .next (s.checked (s.respond (s.packed .one)))

/-- INT.PACK.U16 (R182): write `A` as a little-endian u16 field. -/
def execIntPackU16 (s : State) : Host.Outcome State Fault Refusal := .next (s.checked (s.respond (s.packed .two)))

/-- INT.PACK.U32 (R182): write `A` as a little-endian u32 field. -/
def execIntPackU32 (s : State) : Host.Outcome State Fault Refusal := .next (s.checked (s.respond (s.packed .four)))

/-- INT.PACK.S8 (R182): write `A` as a little-endian s8 field. -/
def execIntPackS8 (s : State) : Host.Outcome State Fault Refusal := .next (s.checked (s.respond (s.packed .one)))

/-- INT.PACK.S16 (R182): write `A` as a little-endian s16 field. -/
def execIntPackS16 (s : State) : Host.Outcome State Fault Refusal := .next (s.checked (s.respond (s.packed .two)))

/-- INT.PACK.S32 (R182): write `A` as a little-endian s32 field. -/
def execIntPackS32 (s : State) : Host.Outcome State Fault Refusal := .next (s.checked (s.respond (s.packed .four)))

/-- INT.UNPACK.U8 (R183): read a little-endian u8 field. -/
def execIntUnpackU8 (s : State) : Host.Outcome State Fault Refusal := .next (s.checked (s.respond (s.unpacked .one false)))

/-- INT.UNPACK.U16 (R183): read a little-endian u16 field. -/
def execIntUnpackU16 (s : State) : Host.Outcome State Fault Refusal := .next (s.checked (s.respond (s.unpacked .two false)))

/-- INT.UNPACK.U32 (R183): read a little-endian u32 field. -/
def execIntUnpackU32 (s : State) : Host.Outcome State Fault Refusal := .next (s.checked (s.respond (s.unpacked .four false)))

/-- INT.UNPACK.S8 (R183): read a little-endian s8 field. -/
def execIntUnpackS8 (s : State) : Host.Outcome State Fault Refusal := .next (s.checked (s.respond (s.unpacked .one true)))

/-- INT.UNPACK.S16 (R183): read a little-endian s16 field. -/
def execIntUnpackS16 (s : State) : Host.Outcome State Fault Refusal := .next (s.checked (s.respond (s.unpacked .two true)))

/-- INT.UNPACK.S32 (R183): read a little-endian s32 field. -/
def execIntUnpackS32 (s : State) : Host.Outcome State Fault Refusal := .next (s.checked (s.respond (s.unpacked .four true)))

/-- STR.TRIM (R184): trim a null-padded field at its first null byte. -/
def execStrTrim (s : State) : Host.Outcome State Fault Refusal := .next (s.checked (s.respond (trimmed s.opIn)))

/-- TIME.J2U (R185): a J2000 timestamp to a UNIX timestamp. -/
def execTimeJ2u (s : State) : Host.Outcome State Fault Refusal := .next (s.checked (s.respond (unixOfJ2000 s.opA)))

/-- TIME.U2J (R186): a UNIX timestamp to a J2000 timestamp. -/
def execTimeU2j (s : State) : Host.Outcome State Fault Refusal := .next (s.checked (s.respond (j2000OfUnix s.opA)))

end Sys2Proof.Machine
end

