-- ==== Sys2Proof/Machine/LengthField.lean ====
section
/-! DEFINITION. The length field (spec/41_length_field.md R140, R141) and its two operations (R142, R143). -/

namespace Sys2Proof.Machine

/-- `SHORT_LEN_MAX` (00_scope.md R7). -/
def shortLenMax : Nat := 127

/-- `LONG_LEN_MAX` (00_scope.md R7). -/
def longLenMax : Nat := 32767

/-- `LEN_FLAG` (00_scope.md R7). -/
def lenFlag : Byte := 0x80

/-- `enc_len(n)` for `n <= 32767` (R140): one byte, or the flag with bits 14..8 and then bits 7..0. Every caller checks the range
first; beyond it the function is not used (notes entry 12). -/
def encLen (n : Nat) : List Byte :=
  if n ≤ shortLenMax then [BitVec.ofNat 8 n] else [lenFlag ||| BitVec.ofNat 8 (n >>> 8), BitVec.ofNat 8 n]

/-- `dec_len(s)` (R141): the value and the number of bytes the field took, or none for `SHORT`. Bytes after the field are not read.
The spec gives it for `|s| >= 1`; an empty string is `SHORT` here, which no rule reaches (notes entry 12). -/
def decLen : List Byte → Option (Nat × Nat)
  | [] => none
  | b :: s =>
    if b.msb then
      match s with
      | [] => none
      | b' :: _ => some ((b &&& 0x7F).toNat <<< 8 ||| b'.toNat, 2)
    else some (b.toNat, 1)

/-- The response of LEN.ENC (R142). -/
def lengthEncoded (a : Operand) : Response :=
  if longLenMax < a.toNat then .raised .operandRange
  else .done (zext64 (encLen a.toNat).length) 0 (encLen a.toNat)

/-- The response of LEN.DEC (R143). -/
def lengthDecoded (s : List Byte) : Response :=
  if s.length = 0 then .raised .invalidShort
  else
    match decLen s with
    | none => .raised .invalidShort
    | some (n, k) => .done (zext64 n) (zext64 k)

/-- LEN.ENC (R142): encode a length. -/
def execLenEnc (s : State) : Host.Outcome State Fault Refusal :=
  .next (s.checked (s.respond (lengthEncoded s.opA)))

/-- LEN.DEC (R143): decode a length field at the start of `IN0`. -/
def execLenDec (s : State) : Host.Outcome State Fault Refusal :=
  .next (s.checked (s.respond (lengthDecoded s.opIn)))

end Sys2Proof.Machine
end

