-- ==== Sys2Proof/Machine/FrameDecode.lean ====
section
/-! DEFINITION. The receive side (spec/43_frame_decode.md R160, R161; 30_encoding.md R72, R74) and its three operations (R162, R164,
R166). -/

namespace Sys2Proof.Machine

/-- `DISCOVERY_MIN` (00_scope.md R7). -/
def discoveryMin : Nat := 4

/-- `len_off` (R160). -/
def lenOff (cfg : Config) : Nat :=
  match cfg.rxLayout with
  | .lenThenInner => 3
  | .innerThenLen => 4

/-- `inner_off(k)` (R160). -/
def innerOff (cfg : Config) (k : Nat) : Nat :=
  match cfg.rxLayout with
  | .lenThenInner => 3 + k
  | .innerThenLen => 3

/-- `body_off(k)` (R160), the same in both layouts. -/
def bodyOff (k : Nat) : Nat := 4 + k

/-- `declared_total(L, k)` (R160). -/
def declaredTotal (cfg : Config) (l k : Nat) : Nat := l + cfg.rxEnvelopeOverhead + (k - 1)

/-- `IN0[2] | (IN0[inner_off(k)] << 8) | (k << 16)` (R162). -/
def replySummary (cfg : Config) (f : List Byte) (k : Nat) : Scalar :=
  (byteAt f 2).setWidth 64 ||| (byteAt f (innerOff cfg k)).setWidth 64 <<< 8 ||| BitVec.ofNat 64 k <<< 16

/-- The checks of FRM.CHKX after the trailer check, with the length field read (R162, R163 items 5 and 6). -/
def replySplit (cfg : Config) (f : List Byte) (l k : Nat) : Response :=
  if f.length < 6 + k then .raised .invalidShort
  else if cfg.rxStrictLength && declaredTotal cfg l k != f.length then .raised .invalidLength
  else .done (zext64 l) (replySummary cfg f k) (slice f (bodyOff k) (f.length - 2))

/-- The response of FRM.CHKX (R162), its checks in the order of R163 and R209. After the length check `dec_len` never answers
`SHORT` (R162, corner cases); that branch gives the status its cause would have. -/
def replyChecked (cfg : Config) (f : List Byte) : Response :=
  if f.length < 7 then .raised .invalidShort
  else if slice f 0 2 ≠ cfg.rxMagic.toList then .raised .invalidMagic
  else if byteAt f 2 ≠ cfg.rxExtCmd then .raised .invalidCmd
  else if !hasCorrectTrailer cfg f then .raised .invalidCrc
  else
    match decLen (slice f (lenOff cfg) f.length) with
    | none => .raised .invalidShort
    | some (l, k) => replySplit cfg f l k

/-- The response of FRM.RXLEN (R164). The magic and the command byte are not checked. -/
def replyLength (cfg : Config) (f : List Byte) : Response :=
  if f.length ≤ discoveryMin then .raised .needMore
  else if f.length < lenOff cfg + 1 then .raised .needMore
  else if (byteAt f (lenOff cfg)).msb && f.length < lenOff cfg + 2 then .raised .needMore
  else
    match decLen (slice f (lenOff cfg) f.length) with
    | none => .raised .needMore
    | some (l, k) => .done (zext64 (declaredTotal cfg l k)) (zext64 k)

/-- 0 for arrangement A, 1 for B (R166). -/
def arrangementCode : Arrangement → Scalar
  | .a => 0
  | .b => 1

/-- The response of FRM.CHKL (R166) to a reply whose magic is `m` and whose total length is `n`. -/
def legacySplit (cfg : Config) (x : Arrangement) (m : List Byte) (n : Nat) (f : List Byte) : Response :=
  if f.length < m.length then .raised .invalidShort
  else if slice f 0 m.length ≠ m then .raised .invalidMagic
  else if f.length < n then .raised .invalidShort
  else if n < f.length && cfg.rxStrictLength then .raised .invalidLength
  else .done (arrangementCode x) (zext64 n) (slice f m.length n)

/-- The response of FRM.CHKL (R166) to a reply to legacy command `c`. -/
def legacyChecked (cfg : Config) (c : Byte) (f : List Byte) : Response :=
  legacySplit cfg (cfg.arrangementOf c) (cfg.legacyMagic (cfg.arrangementOf c)) (cfg.replyLenOf c) f

/-- FRM.CHKX (R162): validate a CDC2 reply frame and split it. -/
def execFrmChkx (s : State) : Host.Outcome State Fault Refusal :=
  .next (s.checked (s.respond (replyChecked s.cfg s.opIn)))

/-- FRM.RXLEN (R164): the total length of a reply from its first bytes. -/
def execFrmRxlen (s : State) : Host.Outcome State Fault Refusal :=
  .next (s.checked (s.respond (replyLength s.cfg s.opIn)))

/-- FRM.CHKL (R166): validate a legacy fixed-length reply. -/
def execFrmChkl (s : State) : Host.Outcome State Fault Refusal :=
  .next (s.checked (s.respond (legacyChecked s.cfg s.opByte s.opIn)))

end Sys2Proof.Machine
end

