-- ==== Sys2Proof/Machine/FrameEncode.lean ====
section
/-! DEFINITION. The command frames (spec/42_frame_encode.md R150, R151; 30_encoding.md R70, R73) and the two operations that build
them (R152, R155). -/

namespace Sys2Proof.Machine

/-- `body(o, i, p)` (R150): magic, outer and inner command, length field, payload. -/
def frameBody (cfg : Config) (o i : Byte) (p : List Byte) : List Byte :=
  cfg.txMagic.toList ++ [o, i] ++ encLen p.length ++ p

/-- `frame(o, i, p)` (R150): the body and its CRC16, the high byte first (R151; 20_memory.md R45). -/
def commandFrame (cfg : Config) (o i : Byte) (p : List Byte) : List Byte :=
  frameBody cfg o i p ++ be16 (crc cfg.crc16 (frameBody cfg o i p))

/-- The legacy probe frame (30_encoding.md R73): the magic and the command byte, no length field, no CRC. -/
def probeFrame (cfg : Config) (c : Byte) : List Byte := cfg.txMagic.toList ++ [c]

/-- `UNKNOWN_LEN` (00_scope.md R7): the expected reply length that means "unknown". It is a value beside the frame, never one of the
length field, where the bytes `FF FF` are 32767 (30_encoding.md R75; 70_reset_and_hazards.md R244). -/
def unknownLen : BitVec 16 := 0xFFFF

/-- What the expected reply length of a command tells the host (30_encoding.md R75). -/
inductive ExpectedReply where
  /-- the reply's length is to be discovered with FRM.RXLEN (42_frame_encode.md R154) -/
  | unknown
  /-- the total reply length in bytes -/
  | concrete (bytes : Nat)
deriving DecidableEq, Repr

/-- The reading of an expected reply length: `UNKNOWN_LEN` is "unknown", every other value a concrete length (30_encoding.md R75). -/
def expectedReply (e : BitVec 16) : ExpectedReply := if e = unknownLen then .unknown else .concrete e.toNat

/-- The expected reply length that FRM.ENCX gives beside its frame, in `R1` (42_frame_encode.md R154). -/
def Response.expected (r : Response) : ExpectedReply := expectedReply (r.r1.setWidth 16)

/-- The response of FRM.ENCX (R152). -/
def frameEncoded (cfg : Config) (o i : Byte) (expected : BitVec 16) (p : List Byte) : Response :=
  if longLenMax < p.length then .raised .operandRange
  else .done (zext64 (commandFrame cfg o i p).length) (expected.setWidth 64) (commandFrame cfg o i p)

/-- The response of FRM.ENCL (R155). -/
def probeEncoded (cfg : Config) (c : Byte) : Response := .done 5 (zext64 (cfg.replyLenOf c)) (probeFrame cfg c)

/-- FRM.ENCX (R152): build a CDC2 command frame. -/
def execFrmEncx (s : State) : Host.Outcome State Fault Refusal :=
  .next (s.checked (s.respond (frameEncoded s.cfg s.opByte s.opInner s.opExpected s.opIn)))

/-- FRM.ENCL (R155): build a legacy probe frame. -/
def execFrmEncl (s : State) : Host.Outcome State Fault Refusal :=
  .next (s.checked (s.respond (probeEncoded s.cfg s.opByte)))

end Sys2Proof.Machine
end

