-- ==== Sys2Proof/Machine/Dispatch.lean ====
section
/-! DEFINITION. One arm for each operation: its meaning, applied to the state whose request port holds the request being served. -/

namespace Sys2Proof.Machine

def exec (i : Instr) (s : State) : Host.Outcome State Fault Refusal :=
  match i with
  | .crc8Clr => Sys2Proof.Machine.execCrc8Clr s
  | .crc8Ld => Sys2Proof.Machine.execCrc8Ld s
  | .crc8Upd => Sys2Proof.Machine.execCrc8Upd s
  | .crc8Blk => Sys2Proof.Machine.execCrc8Blk s
  | .crc8Rd => Sys2Proof.Machine.execCrc8Rd s
  | .crc8Calc => Sys2Proof.Machine.execCrc8Calc s
  | .crc8Tbl => Sys2Proof.Machine.execCrc8Tbl s
  | .crc16Clr => Sys2Proof.Machine.execCrc16Clr s
  | .crc16Ld => Sys2Proof.Machine.execCrc16Ld s
  | .crc16Upd => Sys2Proof.Machine.execCrc16Upd s
  | .crc16Blk => Sys2Proof.Machine.execCrc16Blk s
  | .crc16Rd => Sys2Proof.Machine.execCrc16Rd s
  | .crc16Calc => Sys2Proof.Machine.execCrc16Calc s
  | .crc16Tbl => Sys2Proof.Machine.execCrc16Tbl s
  | .crc32Clr => Sys2Proof.Machine.execCrc32Clr s
  | .crc32Ld => Sys2Proof.Machine.execCrc32Ld s
  | .crc32Upd => Sys2Proof.Machine.execCrc32Upd s
  | .crc32Blk => Sys2Proof.Machine.execCrc32Blk s
  | .crc32Rd => Sys2Proof.Machine.execCrc32Rd s
  | .crc32Calc => Sys2Proof.Machine.execCrc32Calc s
  | .crc32Tbl => Sys2Proof.Machine.execCrc32Tbl s
  | .lenEnc => Sys2Proof.Machine.execLenEnc s
  | .lenDec => Sys2Proof.Machine.execLenDec s
  | .frmEncx => Sys2Proof.Machine.execFrmEncx s
  | .frmEncl => Sys2Proof.Machine.execFrmEncl s
  | .frmChkx => Sys2Proof.Machine.execFrmChkx s
  | .frmRxlen => Sys2Proof.Machine.execFrmRxlen s
  | .frmChkl => Sys2Proof.Machine.execFrmChkl s
  | .intWrapU8 => Sys2Proof.Machine.execIntWrapU8 s
  | .intWrapU16 => Sys2Proof.Machine.execIntWrapU16 s
  | .intWrapU32 => Sys2Proof.Machine.execIntWrapU32 s
  | .intWrapS8 => Sys2Proof.Machine.execIntWrapS8 s
  | .intWrapS16 => Sys2Proof.Machine.execIntWrapS16 s
  | .intWrapS32 => Sys2Proof.Machine.execIntWrapS32 s
  | .intPackU8 => Sys2Proof.Machine.execIntPackU8 s
  | .intPackU16 => Sys2Proof.Machine.execIntPackU16 s
  | .intPackU32 => Sys2Proof.Machine.execIntPackU32 s
  | .intPackS8 => Sys2Proof.Machine.execIntPackS8 s
  | .intPackS16 => Sys2Proof.Machine.execIntPackS16 s
  | .intPackS32 => Sys2Proof.Machine.execIntPackS32 s
  | .intUnpackU8 => Sys2Proof.Machine.execIntUnpackU8 s
  | .intUnpackU16 => Sys2Proof.Machine.execIntUnpackU16 s
  | .intUnpackU32 => Sys2Proof.Machine.execIntUnpackU32 s
  | .intUnpackS8 => Sys2Proof.Machine.execIntUnpackS8 s
  | .intUnpackS16 => Sys2Proof.Machine.execIntUnpackS16 s
  | .intUnpackS32 => Sys2Proof.Machine.execIntUnpackS32 s
  | .strTrim => Sys2Proof.Machine.execStrTrim s
  | .timeJ2u => Sys2Proof.Machine.execTimeJ2u s
  | .timeU2j => Sys2Proof.Machine.execTimeU2j s

end Sys2Proof.Machine
end

