-- ==== Sys2Proof/Machine/Step.lean ====
section
/-! DEFINITION. One step: the host's next move, served whole (spec/00_scope.md R6; 20_memory.md R49, R50). -/

namespace Sys2Proof.Machine

/-- One step of the block. With no move left, it holds its state (60_exceptions.md R217). A reset sets the accumulators
(70_reset_and_hazards.md R230). A request is put on the request port, its command word decoded (30_encoding.md R62), and the
operation run; a word that is no operation gives `ILLEGAL_OP` before any other check (60_exceptions.md R203, R208). -/
def step (s : State) : Host.Outcome State Fault Refusal :=
  match s.host with
  | [] => .next s.idle
  | .reset :: rest => .next (s.withHost rest).applyReset
  | .request r :: rest =>
    match decode r.cw with
    | .error _ => .next (s.present r rest).rejectIllegal
    | .ok i => exec i (s.present r rest)

/-- `s` with a request for the operation whose command word is `w` (of `nbits` bits) as the host's very next move, with the scalar
operands and the byte string that stand on the request port (at reset: 0, 0, `[]`). This stands for the host presenting a
request: the block itself holds no program (10_state.md R23; notes entry 4). -/
def State.withFetchWord (s : State) (nbits w : Nat) : State :=
  s.withHost (.request { s.request with cw := tableCommandWord nbits w } :: s.host)

end Sys2Proof.Machine
end

