-- ==== Sys2Proof/Machine/Assembler.lean ====
section
/-! DEFINITION. The assembler notation of a request and the pseudo-operations (spec/30_encoding.md R76, R77): what a line of text
stands for. It is a host's tool; the block never sees text. Notes entry 13. -/

namespace Sys2Proof.Machine

/-- The name of an operation in a line: the mnemonic of R66 in lower case, with the suffix of R76 for the INT forms. -/
def asmName : Instr → String
  | .crc8Clr => "crc8.clr"
  | .crc8Ld => "crc8.ld"
  | .crc8Upd => "crc8.upd"
  | .crc8Blk => "crc8.blk"
  | .crc8Rd => "crc8.rd"
  | .crc8Calc => "crc8.calc"
  | .crc8Tbl => "crc8.tbl"
  | .crc16Clr => "crc16.clr"
  | .crc16Ld => "crc16.ld"
  | .crc16Upd => "crc16.upd"
  | .crc16Blk => "crc16.blk"
  | .crc16Rd => "crc16.rd"
  | .crc16Calc => "crc16.calc"
  | .crc16Tbl => "crc16.tbl"
  | .crc32Clr => "crc32.clr"
  | .crc32Ld => "crc32.ld"
  | .crc32Upd => "crc32.upd"
  | .crc32Blk => "crc32.blk"
  | .crc32Rd => "crc32.rd"
  | .crc32Calc => "crc32.calc"
  | .crc32Tbl => "crc32.tbl"
  | .lenEnc => "len.enc"
  | .lenDec => "len.dec"
  | .frmEncx => "frm.encx"
  | .frmEncl => "frm.encl"
  | .frmChkx => "frm.chkx"
  | .frmRxlen => "frm.rxlen"
  | .frmChkl => "frm.chkl"
  | .intWrapU8 => "int.wrap.u8"
  | .intWrapU16 => "int.wrap.u16"
  | .intWrapU32 => "int.wrap.u32"
  | .intWrapS8 => "int.wrap.s8"
  | .intWrapS16 => "int.wrap.s16"
  | .intWrapS32 => "int.wrap.s32"
  | .intPackU8 => "int.pack.u8"
  | .intPackU16 => "int.pack.u16"
  | .intPackU32 => "int.pack.u32"
  | .intPackS8 => "int.pack.s8"
  | .intPackS16 => "int.pack.s16"
  | .intPackS32 => "int.pack.s32"
  | .intUnpackU8 => "int.unpack.u8"
  | .intUnpackU16 => "int.unpack.u16"
  | .intUnpackU32 => "int.unpack.u32"
  | .intUnpackS8 => "int.unpack.s8"
  | .intUnpackS16 => "int.unpack.s16"
  | .intUnpackS32 => "int.unpack.s32"
  | .strTrim => "str.trim"
  | .timeJ2u => "time.j2u"
  | .timeU2j => "time.u2j"

/-- Every operation once, in the order of R66. -/
def allInstrs : List Instr :=
  [.crc8Clr, .crc8Ld, .crc8Upd, .crc8Blk, .crc8Rd, .crc8Calc, .crc8Tbl] ++
  [.crc16Clr, .crc16Ld, .crc16Upd, .crc16Blk, .crc16Rd, .crc16Calc, .crc16Tbl] ++
  [.crc32Clr, .crc32Ld, .crc32Upd, .crc32Blk, .crc32Rd, .crc32Calc, .crc32Tbl] ++
  [.lenEnc, .lenDec, .frmEncx, .frmEncl, .frmChkx, .frmRxlen, .frmChkl] ++
  [.intWrapU8, .intWrapU16, .intWrapU32, .intWrapS8, .intWrapS16, .intWrapS32, .intPackU8] ++
  [.intPackU16, .intPackU32, .intPackS8, .intPackS16, .intPackS32, .intUnpackU8, .intUnpackU16] ++
  [.intUnpackU32, .intUnpackS8, .intUnpackS16, .intUnpackS32, .strTrim, .timeJ2u, .timeU2j]

/-- The operation a mnemonic names. -/
def instrNamed (name : List Char) : Option Instr := allInstrs.find? fun i => (asmName i).toList == name

/-- What a line is made of. A bracketed list of bytes and a quoted text are one token each. -/
inductive Token where
  | word (w : List Char)
  | bytes (s : List Byte)
  | comma
  | equals
deriving DecidableEq, Repr

/-- The double quote. -/
def quoteChar : Char := Char.ofNat 34

/-- The value of a digit, upper or lower case. -/
def digitValue (c : Char) : Nat :=
  if '0' ≤ c ∧ c ≤ '9' then c.toNat - 48
  else if 'a' ≤ c ∧ c ≤ 'f' then c.toNat - 87
  else if 'A' ≤ c ∧ c ≤ 'F' then c.toNat - 55
  else 16

/-- A number in a base of at most 16, continuing from `n`. -/
def digitsFrom (base : Nat) (n : Nat) : List Char → Option Nat
  | [] => some n
  | c :: cs => if digitValue c < base then digitsFrom base (n * base + digitValue c) cs else none

/-- A decimal or `0x`-prefixed hexadecimal number (R76). -/
def asmNumber : List Char → Option Nat
  | '0' :: 'x' :: c :: cs => digitsFrom 16 0 (c :: cs)
  | [] => none
  | cs => digitsFrom 10 0 cs

/-- An `<imm>`: a number from 0 to `2^32 - 1` (R76). -/
def asmImm (w : List Char) : Option Operand :=
  match asmNumber w with
  | some n => if n < 2 ^ 32 then some (BitVec.ofNat 32 n) else none
  | none => none

/-- A two-digit hexadecimal byte (R76). -/
def asmByte : List Char → Option Byte
  | [h, l] => (digitsFrom 16 0 [h, l]).map (BitVec.ofNat 8)
  | _ => none

/-- The ASCII code of a character (R76). -/
def asciiByte (c : Char) : Option Byte := if c.toNat < 128 then some (BitVec.ofNat 8 c.toNat) else none

/-- Where the reader of a line stands: in a word (its characters so far, the last first), inside brackets (the bytes so far and the
digits of the next, the last first), or inside a text. -/
inductive LexMode where
  | plain (cur : List Char)
  | bracket (s : List Byte) (cur : List Char)
  | text (s : List Byte)
deriving DecidableEq, Repr

/-- The word read so far, if any, before the tokens after it. -/
def endWord (cur : List Char) (ts : List Token) : List Token := if cur = [] then ts else .word cur.reverse :: ts

/-- The bytes read so far with the byte just ended, if any. -/
def endByte (s : List Byte) (cur : List Char) : Option (List Byte) :=
  if cur = [] then some s else (asmByte cur.reverse).map (· :: s)

/-- The tokens of a line. Text after `;` is a comment (R76), but for a `;` inside a quoted text. -/
def lex : List Char → LexMode → Option (List Token)
  | [], .plain cur => some (endWord cur [])
  | [], _ => none
  | c :: cs, .text s =>
    if c = quoteChar then (lex cs (.plain [])).map (Token.bytes s.reverse :: ·)
    else
      match asciiByte c with
      | some b => lex cs (.text (b :: s))
      | none => none
  | c :: cs, .bracket s cur =>
    if c = ']' then
      match endByte s cur with
      | some s' => (lex cs (.plain [])).map (Token.bytes s'.reverse :: ·)
      | none => none
    else if c = ' ' then
      match endByte s cur with
      | some s' => lex cs (.bracket s' [])
      | none => none
    else lex cs (.bracket s (c :: cur))
  | c :: cs, .plain cur =>
    if c = ';' then some (endWord cur [])
    else if c = ' ' then (lex cs (.plain [])).map (endWord cur)
    else if c = ',' then (lex cs (.plain [])).map fun ts => endWord cur (.comma :: ts)
    else if c = '=' then (lex cs (.plain [])).map fun ts => endWord cur (.equals :: ts)
    else if c = '[' then (lex cs (.bracket [] [])).map (endWord cur)
    else if c = quoteChar then (lex cs (.text [])).map (endWord cur)
    else lex cs (.plain (c :: cur))

/-- The operands of a line, `name=value` with commas between them. -/
def operandList : List Token → Option (List (List Char × Token))
  | [.word n, .equals, v] => some [(n, v)]
  | .word n :: .equals :: v :: .comma :: ts => (operandList ts).map ((n, v) :: ·)
  | _ => none

/-- The scalar operand `name`, if it stands first, and the operands after it; an omitted one is 0 (R76). -/
def takeImm (name : List Char) : List (List Char × Token) → Option (Operand × List (List Char × Token))
  | (n, .word w) :: rest => if n = name then (asmImm w).map (·, rest) else some (0, (n, .word w) :: rest)
  | other => some (0, other)

/-- The byte-string operand `in0`, the last one; an omitted one is `[]` (R76). -/
def takeBytes : List (List Char × Token) → Option (List Byte)
  | [] => some []
  | [(n, .bytes s)] => if n = "in0".toList then some s else none
  | _ => none

/-- `[a=<imm>] [, b=<imm>] [, in0=<bytes>]`, in this order (R76). -/
def asmOperands (ts : List Token) : Option (Operand × Operand × List Byte) := do
  let l ← if ts = [] then some [] else operandList ts
  let (a, l) ← takeImm ['a'] l
  let (b, l) ← takeImm ['b'] l
  let s ← takeBytes l
  return (a, b, s)

/-- The request for an operation. -/
def requestFor (i : Instr) (a b : Operand) (in0 : List Byte) : Request := ⟨encode i, a, b, in0⟩

/-- `nop` (R77): `crc8.rd`, which writes no state. -/
def expandNop : List Request := [requestFor .crc8Rd 0 0 []]

/-- The engine of a pseudo-operation of R77. -/
inductive Engine where
  | crc8
  | crc16
  | crc32
deriving DecidableEq, Repr

/-- CRCW.CLR, CRCW.LD, CRCW.BLK and CRCW.RD of an engine. -/
def Engine.clr : Engine → Instr
  | .crc8 => .crc8Clr
  | .crc16 => .crc16Clr
  | .crc32 => .crc32Clr

def Engine.ld : Engine → Instr
  | .crc8 => .crc8Ld
  | .crc16 => .crc16Ld
  | .crc32 => .crc32Ld

def Engine.blk : Engine → Instr
  | .crc8 => .crc8Blk
  | .crc16 => .crc16Blk
  | .crc32 => .crc32Blk

def Engine.rd : Engine → Instr
  | .crc8 => .crc8Rd
  | .crc16 => .crc16Rd
  | .crc32 => .crc32Rd

/-- `crcW.stream in0=x` (R77): clear, feed, read. -/
def expandStream (e : Engine) (x : List Byte) : List Request :=
  [requestFor e.clr 0 0 [], requestFor e.blk 0 0 x, requestFor e.rd 0 0 []]

/-- `crcW.cont a=s, in0=x` (R77): load a raw seed, feed. -/
def expandCont (e : Engine) (seed : Operand) (x : List Byte) : List Request :=
  [requestFor e.ld seed 0 [], requestFor e.blk 0 0 x]

/-- `frm.cmd o, i, e, in0=p` (R77): FRM.ENCX with named fields, `A = (i << 8) | o`. An `A` that is no `<imm>` of R76 is refused. -/
def expandCmd (o i e : Operand) (p : List Byte) : Option (List Request) :=
  if i.toNat <<< 8 ||| o.toNat < 2 ^ 32 then
    some [requestFor .frmEncx (BitVec.ofNat 32 (i.toNat <<< 8 ||| o.toNat)) e p]
  else none

/-- The engine and the form of a pseudo-operation's name: `stream` (true) or `cont` (false). -/
def pseudoNamed (name : List Char) : Option (Engine × Bool) :=
  if name = "crc8.stream".toList then some (.crc8, true)
  else if name = "crc16.stream".toList then some (.crc16, true)
  else if name = "crc32.stream".toList then some (.crc32, true)
  else if name = "crc8.cont".toList then some (.crc8, false)
  else if name = "crc16.cont".toList then some (.crc16, false)
  else if name = "crc32.cont".toList then some (.crc32, false)
  else none

/-- The operands of `frm.cmd`: three numbers by position, then `in0`. -/
def asmCmd : List Token → Option (List Request)
  | .word o :: .comma :: .word i :: .comma :: .word e :: ts => do
    let o ← asmImm o
    let i ← asmImm i
    let e ← asmImm e
    match ts with
    | [] => expandCmd o i e []
    | [.comma, .word n, .equals, .bytes p] => if n = "in0".toList then expandCmd o i e p else none
    | _ => none
  | _ => none

/-- `crcW.stream` takes `in0` alone, `crcW.cont` takes `a` and `in0` (R77). -/
def asmPseudo (e : Engine) (stream : Bool) (ts : List Token) : Option (List Request) := do
  let (a, b, x) ← asmOperands ts
  if b ≠ 0 then none
  else if stream then if a ≠ 0 then none else some (expandStream e x)
  else some (expandCont e a x)

/-- The requests of a line that starts with the mnemonic `name`. -/
def asmNamed (name : List Char) (ts : List Token) : Option (List Request) :=
  if name = "nop".toList then if ts = [] then some expandNop else none
  else if name = "frm.cmd".toList then asmCmd ts
  else
    match pseudoNamed name, instrNamed name with
    | some (e, stream), _ => asmPseudo e stream ts
    | none, some i => (asmOperands ts).map fun (a, b, s) => [requestFor i a b s]
    | none, none => none

/-- The requests one line stands for (R76, R77): none for an empty line, one for an operation, its expansion for a
pseudo-operation; no answer for a line that is not of this notation. -/
def assembleLine (line : List Char) : Option (List Request) :=
  match lex line (.plain []) with
  | some [] => some []
  | some (.word name :: ts) => asmNamed name ts
  | _ => none

/-- The requests of a program, line by line. -/
def assemble : List String → Option (List Request)
  | [] => some []
  | l :: ls => do
    let r ← assembleLine l.toList
    let rs ← assemble ls
    return r ++ rs

end Sys2Proof.Machine
end

