-- ==== Sys2Proof/Safety.lean ====
section
/-! DEFINITION. What a run of the block is (spec/70_reset_and_hazards.md R237, R254) and what holds of every state of one. -/

namespace Sys2Proof.Machine

/-- A response keeps the interface's word (30_encoding.md R61; 00_scope.md R12): `OUT` holds at most `MAX_BUF` bytes, and with a
status other than `OK` both results are 0 and `OUT` is empty. -/
def Response.Honest (cfg : Config) (r : Response) : Prop :=
  r.out.length ≤ cfg.maxBuf ∧ (r.status ≠ .ok → r.r0 = 0 ∧ r.r1 = 0 ∧ r.out = [])

/-- What holds of every state of a run: the configuration is well formed (`cfg_wf`, 70 R237) and the response on the port, if
there is one, keeps the interface's word. -/
def State.Inv (s : State) : Prop := s.cfg.WellFormed ∧ ∀ r, s.response = some r → r.Honest s.cfg

/-- The launch premises of 70 R237: a well-formed configuration, every accumulator at its initial value, no request in progress. -/
def State.Launched (s : State) : Prop :=
  s.cfg.WellFormed ∧ s.acc8 = s.cfg.crc8.init ∧ s.acc16 = s.cfg.crc16.init ∧ s.acc32 = s.cfg.crc32.init ∧ s.host = []

/-- CRCW.CALC of an engine. -/
def Engine.calc : Engine → Instr
  | .crc8 => .crc8Calc
  | .crc16 => .crc16Calc
  | .crc32 => .crc32Calc

/-- CRCW.UPD of an engine. -/
def Engine.upd : Engine → Instr
  | .crc8 => .crc8Upd
  | .crc16 => .crc16Upd
  | .crc32 => .crc32Upd

/-- The three accumulators (10_state.md R20). -/
def State.accs (s : State) : BitVec 8 × BitVec 16 × BitVec 32 := (s.acc8, s.acc16, s.acc32)

/-- One request presented to an idle block, and served (20_memory.md R50). -/
def State.serve (s : State) (r : Request) : Host.Outcome State Fault Refusal := step (s.withHost [.request r])

/-- A run (70 R254): the requests in order, each presented when the response to the one before it has been produced. Its
observation is the list of responses; the state at its end holds the final accumulators. -/
def observe : List Request → State → Host.Outcome (List Response × State) Fault Refusal
  | [], s => .next ([], s)
  | r :: rs, s =>
    match s.serve r with
    | .next t =>
      match observe rs t with
      | .next (os, u) => .next (t.response.toList ++ os, u)
      | .fault f => .fault f
      | .refused f => .refused f
    | .fault f => .fault f
    | .refused f => .refused f

end Sys2Proof.Machine
end

