-- ==== Sys2Proof/Certificates/Slice0/Obligations.lean ====
section
/-! DEFINITION. The statements for the provers. Each docstring names the rules of spec/ it formalises. A result statement gives the
whole next state, so it is its own frame: every field it does not name is unchanged. -/

open Sys2Proof Sys2Proof.Machine

/-! ### Encoding -/

/-- R62 to R66: each operation has exactly one command word, and a command word decodes to an operation exactly when it is that
operation's word. -/
def Obligations.CommandWordsDecodeExactly : Prop :=
  ∀ (cw : CommandWord) (i : Instr), decode cw = .ok i ↔ cw = encode i

/-- R67, R63, R64: the words that select no operation, and why. -/
def Obligations.ReservedWordsAreExactlyThese : Prop :=
  ∀ cw : CommandWord,
    (decode cw = .error .reservedOpcode ↔
      opcOf cw ≤ 0x0F ∨ (0x17 ≤ opcOf cw ∧ opcOf cw ≤ 0x1F) ∨ (0x27 ≤ opcOf cw ∧ opcOf cw ≤ 0x2F) ∨
        (0x37 ≤ opcOf cw ∧ opcOf cw ≤ 0x3F) ∨ (0x42 ≤ opcOf cw ∧ opcOf cw ≤ 0x4F) ∨
        (0x52 ≤ opcOf cw ∧ opcOf cw ≤ 0x5F) ∨ (0x63 ≤ opcOf cw ∧ opcOf cw ≤ 0x6F) ∨ 0x76 ≤ opcOf cw) ∧
    (decode cw = .error .reservedModifier ↔
      decode cw ≠ .error .reservedOpcode ∧
        if opcOf cw = 0x70 ∨ opcOf cw = 0x71 ∨ opcOf cw = 0x72 then
          cw.extractLsb' 0 2 = 3 ∨ cw.extractLsb' 3 5 ≠ 0
        else modOf cw ≠ 0)

/-- R66, R63: a few words written out from the opcode map. A sanity statement. -/
def Obligations.SampleWordsDecode : Prop :=
  decode 0x1000 = .ok .crc8Clr ∧ decode 0x2300 = .ok .crc16Blk ∧ decode 0x3600 = .ok .crc32Tbl ∧ decode 0x4100 = .ok .lenDec ∧
    decode 0x5000 = .ok .frmEncx ∧ decode 0x6200 = .ok .frmChkl ∧ decode 0x7006 = .ok .intWrapS32 ∧
    decode 0x7101 = .ok .intPackU16 ∧ decode 0x7204 = .ok .intUnpackS8 ∧ decode 0x7500 = .ok .timeU2j

/-- R203, with R202: the requests that get `ILLEGAL_OP`, whatever `A`, `B` and `IN0` hold, and all that happens to them; no
other request gets it. -/
def Obligations.IllegalRequestsExactly : Prop :=
  ∀ (s : State) (r : Request) (rest : List HostMove), s.host = .request r :: rest →
    let illegal : Prop :=
      opcOf r.cw ∉ ([0x10, 0x11, 0x12, 0x13, 0x14, 0x15, 0x16, 0x20, 0x21, 0x22, 0x23, 0x24, 0x25, 0x26, 0x30, 0x31, 0x32,
        0x33, 0x34, 0x35, 0x36, 0x40, 0x41, 0x50, 0x51, 0x60, 0x61, 0x62, 0x70, 0x71, 0x72, 0x73, 0x74, 0x75] : List Byte) ∨
      (opcOf r.cw ∈ ([0x70, 0x71, 0x72] : List Byte) ∧ (r.cw.extractLsb' 0 2 = 3 ∨ r.cw.extractLsb' 3 5 ≠ 0)) ∨
      (opcOf r.cw ∉ ([0x70, 0x71, 0x72] : List Byte) ∧ modOf r.cw ≠ 0)
    (illegal → step s = .next { s with request := r, host := rest, response := some ⟨.illegalOp, 0, 0, []⟩ }) ∧
    (¬ illegal → ∃ t resp, step s = .next t ∧ t.response = some resp ∧ resp.status ≠ .illegalOp)

/-! ### The step -/

/-- R50, R60: a request whose command word decodes to `i` is put on the request port and served by `exec i`. Every `Instr` is
well formed. -/
def Obligations.StepRunsDecodedRequest : Prop :=
  ∀ (s : State) (r : Request) (rest : List HostMove) (i : Instr), s.host = .request r :: rest → decode r.cw = .ok i →
    step s = exec i { s with request := r, host := rest }

/-- R217 "Between requests it is idle and holds its state". That an idle block answers a step at all is the model's choice
(notes entry 5). -/
def Obligations.IdleBlockHoldsItsState : Prop := ∀ s : State, s.host = [] → step s = .next s

/-- R230: what the reset event writes. That the response is gone afterwards is the model's reading of R232 (notes entry 6). -/
def Obligations.ResetEventLoadsInitialValues : Prop :=
  ∀ (s : State) (rest : List HostMove), s.host = .reset :: rest →
    step s = .next { s with acc8 := s.cfg.crc8.init, acc16 := s.cfg.crc16.init, acc32 := s.cfg.crc32.init,
                            response := none, host := rest }

/-- R233: reset leaves the accumulators and the configuration as the three clears do, in any order. -/
def Obligations.ResetEqualsThreeClears : Prop :=
  ∀ (s : State) (p : List Instr) (a b : Operand), p.Perm [.crc8Clr, .crc16Clr, .crc32Clr] →
    ∃ os u v, observe (p.map fun i => requestFor i a b []) s = .next (os, u) ∧ step (s.withHost [.reset]) = .next v ∧
      u.accs = v.accs ∧ u.cfg = v.cfg

/-- R29, R230: the state after reset. The values of the OPEN parameters stay uninterpreted (notes entry 2);
that the response is `none` is the model's reading of R232 (notes entry 6). -/
def Obligations.ResetStateIsAsGiven : Prop :=
  State.reset.acc16 = 0x0000 ∧ State.reset.acc8 = State.reset.cfg.crc8.init ∧ State.reset.acc32 = State.reset.cfg.crc32.init ∧
    State.reset.response = none ∧ State.reset.cfg.crc16 = ⟨0x1021, 0x0000, 0x0000⟩ ∧
    State.reset.cfg.rxStrictLength = true ∧ State.reset.cfg.maxBuf = 65536

/-- R5, R237: a well-formed configuration is launched with the launch premises, any other is refused. -/
def Obligations.OnlyWellFormedConfigurationsLaunch : Prop :=
  ∀ cfg : Config,
    (cfg.WellFormed → ∃ s, State.instantiate cfg = .next s ∧ s.cfg = cfg ∧ s.Launched ∧ s.Inv) ∧
    (¬ cfg.WellFormed → State.instantiate cfg = .refused .illFormedConfiguration)

/-- R5, R237: the state after reset meets the invariant of `StepKeepsInvariant`. That the OPEN legacy parameters lie in R5's range is
the model's choice (notes entry 2). -/
def Obligations.ResetMeetsInvariant : Prop := State.reset.Inv

/-- R5, R12, R61, R231: every step keeps a well-formed configuration, and every response it leaves holds at most `MAX_BUF` bytes
and is all zero and empty when its status is not `OK`. -/
def Obligations.StepKeepsInvariant : Prop := ∀ s t : State, s.Inv → step s = .next t → t.Inv

/-- R251, R231, R50: every step answers, changes no parameter, and takes exactly the host's next move. That a step with no move left
is answered at all is the model's choice (notes entry 5). -/
def Obligations.EveryStepAnswers : Prop :=
  ∀ s : State, ∃ t, step s = .next t ∧ t.cfg = s.cfg ∧ t.host = s.host.tail ∧
    ∀ r rest, s.host = .request r :: rest → t.request = r ∧ ∃ resp, t.response = some resp

/-- R254, R251: a run of any requests from any state ends, with one response for each request. -/
def Obligations.EveryRunEnds : Prop :=
  ∀ (rs : List Request) (s : State), ∃ os u, observe rs s = .next (os, u) ∧ os.length = rs.length ∧ u.cfg = s.cfg

/-! ### Statuses -/

/-- R201: the code of every status; two statuses never share one. -/
def Obligations.StatusCodesAreAsListed : Prop :=
  Status.ok.code = 0x00 ∧ Status.needMore.code = 0x01 ∧ Status.illegalOp.code = 0x80 ∧ Status.operandRange.code = 0x81 ∧
    Status.invalidShort.code = 0x90 ∧ Status.invalidMagic.code = 0x91 ∧ Status.invalidCmd.code = 0x92 ∧
    Status.invalidCrc.code = 0x93 ∧ Status.invalidLength.code = 0x94 ∧ ∀ x y : Status, x.code = y.code → x = y

/-- R202, R12: a request that ends with any status other than `OK` changes nothing but the ports, and its response is the
default one. -/
def Obligations.FailedRequestsLeaveNoTrace : Prop :=
  ∀ (s t : State) (r : Request) (rest : List HostMove) (resp : Response), s.host = .request r :: rest → step s = .next t →
    t.response = some resp → resp.status ≠ .ok →
    t = { s with request := r, host := rest, response := some ⟨resp.status, 0, 0, []⟩ }

/-- R204, with R203 before it: an `IN0` longer than `MAX_BUF` gives every assigned operation with a legal `MOD` `OPERAND_RANGE`, before
every check of its own, and every other word `ILLEGAL_OP`. -/
def Obligations.BufferLimitComesFirst : Prop :=
  ∀ (s : State) (r : Request) (rest : List HostMove), s.host = .request r :: rest → s.cfg.maxBuf < r.in0.length →
    let status : Status := match decode r.cw with | .ok _ => .operandRange | .error _ => .illegalOp
    step s = .next { s with request := r, host := rest, response := some ⟨status, 0, 0, []⟩ }

/-- R201 (column "raised by"), R205, R207: which operations can end with which status, given an `IN0` within the limit. -/
def Obligations.StatusesComeOnlyFromTheirOperations : Prop :=
  ∀ (i : Instr) (s t : State) (resp : Response), s.request.WellFormed s.cfg → exec i s = .next t → t.response = some resp →
    resp.status ≠ .illegalOp ∧
    (resp.status = .needMore → i = .frmRxlen) ∧
    (resp.status = .operandRange → i ∈ [.crc8Tbl, .crc16Tbl, .crc32Tbl, .lenEnc, .frmEncx, .timeU2j]) ∧
    (resp.status = .invalidShort →
      i ∈ [.lenDec, .frmChkx, .frmChkl, .intUnpackU8, .intUnpackU16, .intUnpackU32, .intUnpackS8, .intUnpackS16,
        .intUnpackS32]) ∧
    (resp.status = .invalidMagic → i ∈ [.frmChkx, .frmChkl]) ∧
    (resp.status = .invalidCmd → i = .frmChkx) ∧
    (resp.status = .invalidCrc → i = .frmChkx) ∧
    (resp.status = .invalidLength → i ∈ [.frmChkx, .frmChkl])

/-- R20 (column "written by"), R109, R241: an operation on one engine never changes another's accumulator, and no other operation
changes any. -/
def Obligations.AccumulatorsAreWrittenOnlyByTheirEngine : Prop :=
  ∀ (i : Instr) (s t : State), exec i s = .next t →
    (i ∉ [.crc8Clr, .crc8Ld, .crc8Upd, .crc8Blk] → t.acc8 = s.acc8) ∧
    (i ∉ [.crc16Clr, .crc16Ld, .crc16Upd, .crc16Blk] → t.acc16 = s.acc16) ∧
    (i ∉ [.crc32Clr, .crc32Ld, .crc32Upd, .crc32Blk] → t.acc32 = s.acc32) ∧
    t.cfg = s.cfg ∧ t.request = s.request ∧ t.host = s.host

/-- R20 (column "read by"): what an operation answers and writes depends on an accumulator only if it is UPD, BLK or RD of that
engine: neither the response nor another accumulator does, nor the new value that CLR and LD give the accumulator itself. -/
def Obligations.AccumulatorsAreReadOnlyByTheirEngine : Prop :=
  ∀ (i : Instr) (s : State) (x : BitVec 8) (y : BitVec 16) (z : BitVec 32),
    (i ∉ [.crc8Upd, .crc8Blk, .crc8Rd] → ∃ t u, exec i s = .next t ∧ exec i { s with acc8 := x } = .next u ∧
      u.response = t.response ∧ u.acc16 = t.acc16 ∧ u.acc32 = t.acc32 ∧
      (i ∈ [.crc8Clr, .crc8Ld] → s.request.WellFormed s.cfg → u.acc8 = t.acc8)) ∧
    (i ∉ [.crc16Upd, .crc16Blk, .crc16Rd] → ∃ t u, exec i s = .next t ∧ exec i { s with acc16 := y } = .next u ∧
      u.response = t.response ∧ u.acc8 = t.acc8 ∧ u.acc32 = t.acc32 ∧
      (i ∈ [.crc16Clr, .crc16Ld] → s.request.WellFormed s.cfg → u.acc16 = t.acc16)) ∧
    (i ∉ [.crc32Upd, .crc32Blk, .crc32Rd] → ∃ t u, exec i s = .next t ∧ exec i { s with acc32 := z } = .next u ∧
      u.response = t.response ∧ u.acc8 = t.acc8 ∧ u.acc16 = t.acc16 ∧
      (i ∈ [.crc32Clr, .crc32Ld] → s.request.WellFormed s.cfg → u.acc32 = t.acc32))

/-- R109: a streaming CRC16 kept in `ACC16` survives any requests that are no CRC16.CLR, LD, UPD or BLK. -/
def Obligations.Acc16SurvivesOtherRequests : Prop :=
  ∀ (rs : List Request) (s : State),
    (∀ r ∈ rs, ∀ i ∈ [Instr.crc16Clr, .crc16Ld, .crc16Upd, .crc16Blk], decode r.cw ≠ .ok i) →
    ∃ os u, observe rs s = .next (os, u) ∧ u.acc16 = s.acc16

/-! ### CRC engines -/

/-- R110, R117, R124: CLR. -/
def Obligations.ClearLoadsInitialValue : Prop :=
  ∀ s : State, s.request.WellFormed s.cfg →
    exec .crc8Clr s = .next { s with acc8 := s.cfg.crc8.init, response := some ⟨.ok, s.cfg.crc8.init.setWidth 64, 0, []⟩ } ∧
    exec .crc16Clr s = .next { s with acc16 := s.cfg.crc16.init, response := some ⟨.ok, s.cfg.crc16.init.setWidth 64, 0, []⟩ } ∧
    exec .crc32Clr s = .next { s with acc32 := s.cfg.crc32.init, response := some ⟨.ok, s.cfg.crc32.init.setWidth 64, 0, []⟩ }

/-- R111, R118, R125: LD takes the low bits of `A`, without a status for the others. -/
def Obligations.LoadTakesLowBits : Prop :=
  ∀ s : State, s.request.WellFormed s.cfg →
    exec .crc8Ld s = .next { s with acc8 := s.request.a.extractLsb' 0 8,
                                    response := some ⟨.ok, (s.request.a.extractLsb' 0 8).setWidth 64, 0, []⟩ } ∧
    exec .crc16Ld s = .next { s with acc16 := s.request.a.extractLsb' 0 16,
                                     response := some ⟨.ok, (s.request.a.extractLsb' 0 16).setWidth 64, 0, []⟩ } ∧
    exec .crc32Ld s = .next { s with acc32 := s.request.a, response := some ⟨.ok, s.request.a.setWidth 64, 0, []⟩ }

/-- R112, R119, R126, R104: UPD gives what the bitwise loop gives: exclusive-or `b << (W-8)` into the accumulator, then 8 turns. -/
def Obligations.UpdateIsTheBitwiseLoop : Prop :=
  ∀ s : State, s.request.WellFormed s.cfg →
    let b := s.request.a.extractLsb' 0 8
    let x := crcShifts s.cfg.crc8.poly 8 (s.acc8 ^^^ b)
    let y := crcShifts s.cfg.crc16.poly 8 (s.acc16 ^^^ (b.setWidth 16 <<< 8))
    let z := crcShifts s.cfg.crc32.poly 8 (s.acc32 ^^^ (b.setWidth 32 <<< 24))
    exec .crc8Upd s = .next { s with acc8 := x, response := some ⟨.ok, x.setWidth 64, 0, []⟩ } ∧
    exec .crc16Upd s = .next { s with acc16 := y, response := some ⟨.ok, y.setWidth 64, 0, []⟩ } ∧
    exec .crc32Upd s = .next { s with acc32 := z, response := some ⟨.ok, z.setWidth 64, 0, []⟩ }

/-- R102, R112, R119, R126: UPD is one table-driven step: for CRC8 the table entry alone, for the wider engines the shifted
accumulator with the entry the top byte selects. -/
def Obligations.UpdateIsOneTableStep : Prop :=
  ∀ s : State, s.request.WellFormed s.cfg →
    let b := s.request.a.extractLsb' 0 8
    (∃ t, exec .crc8Upd s = .next t ∧ t.acc8 = crcTable s.cfg.crc8.poly (s.acc8 ^^^ b)) ∧
    (∃ t, exec .crc16Upd s = .next t ∧
      t.acc16 = (s.acc16 <<< 8) ^^^ crcTable s.cfg.crc16.poly (s.acc16.extractLsb' 8 8 ^^^ b)) ∧
    (∃ t, exec .crc32Upd s = .next t ∧
      t.acc32 = (s.acc32 <<< 8) ^^^ crcTable s.cfg.crc32.poly (s.acc32.extractLsb' 24 8 ^^^ b))

/-- R113, R120, R127: BLK folds the step over the bytes of `IN0` in order. -/
def Obligations.BlockFeedsEveryByte : Prop :=
  ∀ s : State, s.request.WellFormed s.cfg →
    let x := s.request.in0.foldl (crcStep s.cfg.crc8.poly) s.acc8
    let y := s.request.in0.foldl (crcStep s.cfg.crc16.poly) s.acc16
    let z := s.request.in0.foldl (crcStep s.cfg.crc32.poly) s.acc32
    exec .crc8Blk s = .next { s with acc8 := x, response := some ⟨.ok, x.setWidth 64, 0, []⟩ } ∧
    exec .crc16Blk s = .next { s with acc16 := y, response := some ⟨.ok, y.setWidth 64, 0, []⟩ } ∧
    exec .crc32Blk s = .next { s with acc32 := z, response := some ⟨.ok, z.setWidth 64, 0, []⟩ }

/-- R114, R121, R128: RD gives the finished CRC and writes nothing. -/
def Obligations.ReadGivesFinishedCrc : Prop :=
  ∀ s : State, s.request.WellFormed s.cfg →
    exec .crc8Rd s = .next { s with response := some ⟨.ok, (s.acc8 ^^^ s.cfg.crc8.xorOut).setWidth 64, 0, []⟩ } ∧
    exec .crc16Rd s = .next { s with response := some ⟨.ok, (s.acc16 ^^^ s.cfg.crc16.xorOut).setWidth 64, 0, []⟩ } ∧
    exec .crc32Rd s = .next { s with response := some ⟨.ok, (s.acc32 ^^^ s.cfg.crc32.xorOut).setWidth 64, 0, []⟩ }

/-- R115, R122, R129, R103: CALC gives the CRC of `IN0` from the initial value and writes nothing. -/
def Obligations.CalcIsOneShot : Prop :=
  ∀ s : State, s.request.WellFormed s.cfg →
    let x := s.request.in0.foldl (crcStep s.cfg.crc8.poly) s.cfg.crc8.init ^^^ s.cfg.crc8.xorOut
    let y := s.request.in0.foldl (crcStep s.cfg.crc16.poly) s.cfg.crc16.init ^^^ s.cfg.crc16.xorOut
    let z := s.request.in0.foldl (crcStep s.cfg.crc32.poly) s.cfg.crc32.init ^^^ s.cfg.crc32.xorOut
    exec .crc8Calc s = .next { s with response := some ⟨.ok, x.setWidth 64, 0, []⟩ } ∧
    exec .crc16Calc s = .next { s with response := some ⟨.ok, y.setWidth 64, 0, []⟩ } ∧
    exec .crc32Calc s = .next { s with response := some ⟨.ok, z.setWidth 64, 0, []⟩ }

/-- R116, R123, R130, R205: TBL reads entry `A`, and checks the whole of `A`. -/
def Obligations.TableReadChecksIndex : Prop :=
  ∀ s : State, s.request.WellFormed s.cfg →
    let i := s.request.a.extractLsb' 0 8
    (s.request.a.toNat ≤ 255 →
      exec .crc8Tbl s = .next { s with response := some ⟨.ok, (crcTable s.cfg.crc8.poly i).setWidth 64, 0, []⟩ } ∧
      exec .crc16Tbl s = .next { s with response := some ⟨.ok, (crcTable s.cfg.crc16.poly i).setWidth 64, 0, []⟩ } ∧
      exec .crc32Tbl s = .next { s with response := some ⟨.ok, (crcTable s.cfg.crc32.poly i).setWidth 64, 0, []⟩ }) ∧
    (255 < s.request.a.toNat →
      exec .crc8Tbl s = .next { s with response := some ⟨.operandRange, 0, 0, []⟩ } ∧
      exec .crc16Tbl s = .next { s with response := some ⟨.operandRange, 0, 0, []⟩ } ∧
      exec .crc32Tbl s = .next { s with response := some ⟨.operandRange, 0, 0, []⟩ })

/-- R104: the table-driven step gives the same accumulator as the bitwise loop, for every width of the block and every
polynomial. -/
def Obligations.TableStepEqualsBitwiseLoop : Prop :=
  ∀ w ∈ [8, 16, 32], ∀ (poly acc : BitVec w) (b : Byte),
    crcStep poly acc b = crcShifts poly 8 (acc ^^^ (b.setWidth w <<< (w - 8)))

/-- R116, R123, R130 (corner cases), R101: entry 0 of every table is 0, and entry 1 is the polynomial. -/
def Obligations.TableEntriesZeroAndOne : Prop :=
  ∀ w ∈ [8, 16, 32], ∀ poly : BitVec w, crcTable poly 0 = 0 ∧ crcTable poly 1 = poly

/-- R113, R120, R127 (corner cases): BLK on `x` then on `y` leaves the same state of the engines, and gives the same last
response, as one BLK on `x ‖ y`. -/
def Obligations.BlocksConcatenate : Prop :=
  ∀ (e : Engine) (s : State) (x y : List Byte), (x ++ y).length ≤ s.cfg.maxBuf →
    ∃ o r u v, observe [requestFor e.blk 0 0 x, requestFor e.blk 0 0 y] s = .next ([o, r], u) ∧
      observe [requestFor e.blk 0 0 (x ++ y)] s = .next ([r], v) ∧ u.accs = v.accs

/-- R113, R120, R127 (corner cases): BLK on `x` leaves the same accumulators as UPD on each byte of `x` in order. -/
def Obligations.BlockEqualsUpdates : Prop :=
  ∀ (e : Engine) (s : State) (x : List Byte), x.length ≤ s.cfg.maxBuf →
    ∃ os r u v, observe (x.map fun b => requestFor e.upd (b.setWidth 32) 0 []) s = .next (os, u) ∧
      observe [requestFor e.blk 0 0 x] s = .next ([r], v) ∧ u.accs = v.accs

/-- R77, R114, R121, R128 (corner cases): clear, feed, read gives the same response as CALC, whatever the accumulator held, and
CALC leaves every accumulator as it was. -/
def Obligations.StreamEqualsCalc : Prop :=
  ∀ (e : Engine) (s : State) (x : List Byte), x.length ≤ s.cfg.maxBuf →
    ∃ o₁ o₂ r u v, observe (expandStream e x) s = .next ([o₁, o₂, r], u) ∧
      observe [requestFor e.calc 0 0 x] s = .next ([r], v) ∧ r.status = .ok ∧ v.accs = s.accs

/-- R241: after UPD or BLK, `R0` holds the raw accumulator, and LD with that value later restores it exactly. -/
def Obligations.SavedAccumulatorIsRestored : Prop :=
  ∀ (s u : State), s.request.WellFormed s.cfg → u.request.WellFormed u.cfg →
    (∀ i ∈ [Instr.crc8Upd, .crc8Blk], ∃ t r, exec i s = .next t ∧ t.response = some r ∧ r.r0 = t.acc8.setWidth 64 ∧
      (u.request.a = r.r0.setWidth 32 → ∃ v, exec .crc8Ld u = .next v ∧ v.acc8 = t.acc8)) ∧
    (∀ i ∈ [Instr.crc16Upd, .crc16Blk], ∃ t r, exec i s = .next t ∧ t.response = some r ∧ r.r0 = t.acc16.setWidth 64 ∧
      (u.request.a = r.r0.setWidth 32 → ∃ v, exec .crc16Ld u = .next v ∧ v.acc16 = t.acc16)) ∧
    (∀ i ∈ [Instr.crc32Upd, .crc32Blk], ∃ t r, exec i s = .next t ∧ t.response = some r ∧ r.r0 = t.acc32.setWidth 64 ∧
      (u.request.a = r.r0.setWidth 32 → ∃ v, exec .crc32Ld u = .next v ∧ v.acc32 = t.acc32))

/-- R105, R161: with no final exclusive-or the residue of a correct trailer is zero; for this hardware's CRC16 a byte string has a
correct trailer exactly when its CRC over all its bytes is zero. -/
def Obligations.CorrectTrailerMeansZeroResidue : Prop :=
  (∀ (p : CrcParams 16) (m : List Byte), p.xorOut = 0 → crc p (m ++ be16 (crc p m)) = 0) ∧
  ∀ (cfg : Config) (f : List Byte), cfg.crc16 = ⟨0x1021, 0, 0⟩ → 2 ≤ f.length →
    (hasCorrectTrailer cfg f = true ↔ crc cfg.crc16 f = 0)

/-- R106: a frame with a correct trailer never has one after an error confined to 16 consecutive bits (a single-bit error is one).
The error is `v` at any place of three consecutive bytes; a frame of two bytes has room for `v` itself alone. -/
def Obligations.BurstErrorsBreakTheTrailer : Prop :=
  ∀ (cfg : Config) (v : BitVec 16), cfg.crc16 = ⟨0x1021, 0, 0⟩ → v ≠ 0 →
    (∀ (pre post : List Byte) (a b c : Byte) (k : Nat), k ≤ 8 →
      let e : BitVec 24 := v.setWidth 24 <<< k
      hasCorrectTrailer cfg (pre ++ [a, b, c] ++ post) = true →
      hasCorrectTrailer cfg (pre ++ [a ^^^ e.extractLsb' 16 8, b ^^^ e.extractLsb' 8 8, c ^^^ e.extractLsb' 0 8] ++ post) = false) ∧
    ∀ a b : Byte, hasCorrectTrailer cfg [a, b] = true →
      hasCorrectTrailer cfg [a ^^^ v.extractLsb' 8 8, b ^^^ v.extractLsb' 0 8] = false

/-! ### Length field -/

/-- R142, R140, R205: LEN.ENC. -/
def Obligations.LengthEncodeResult : Prop :=
  ∀ s : State, s.request.WellFormed s.cfg →
    let n := s.request.a
    (n.toNat ≤ 127 → exec .lenEnc s = .next { s with response := some ⟨.ok, 1, 0, [n.extractLsb' 0 8]⟩ }) ∧
    (128 ≤ n.toNat → n.toNat ≤ 32767 →
      exec .lenEnc s = .next { s with response := some ⟨.ok, 2, 0, [1#1 ++ n.extractLsb' 8 7, n.extractLsb' 0 8]⟩ }) ∧
    (32768 ≤ n.toNat → exec .lenEnc s = .next { s with response := some ⟨.operandRange, 0, 0, []⟩ })

/-- R143, R141: LEN.DEC, the bytes after the field ignored, both spellings of a small value accepted (R145). -/
def Obligations.LengthDecodeResult : Prop :=
  ∀ s : State, s.request.WellFormed s.cfg →
    (s.request.in0 = [] → exec .lenDec s = .next { s with response := some ⟨.invalidShort, 0, 0, []⟩ }) ∧
    (∀ (v : BitVec 7) (rest : List Byte), s.request.in0 = (0#1 ++ v) :: rest →
      exec .lenDec s = .next { s with response := some ⟨.ok, v.setWidth 64, 1, []⟩ }) ∧
    (∀ v : BitVec 7, s.request.in0 = [1#1 ++ v] →
      exec .lenDec s = .next { s with response := some ⟨.invalidShort, 0, 0, []⟩ }) ∧
    (∀ (v : BitVec 7) (c : Byte) (rest : List Byte), s.request.in0 = (1#1 ++ v) :: c :: rest →
      exec .lenDec s = .next { s with response := some ⟨.ok, (v ++ c).setWidth 64, 2, []⟩ })

/-- R144: the length field is invertible from 0 to 32767; the short form is used exactly up to 127; the long form has bit 7 of its
first byte set. -/
def Obligations.LengthFieldInvertible : Prop :=
  ∀ (n : Nat) (rest : List Byte), n ≤ 32767 →
    decLen (encLen n ++ rest) = some (n, (encLen n).length) ∧ ((encLen n).length = 1 ↔ n ≤ 127) ∧
      ((encLen n).length ≠ 1 → (encLen n).length = 2 ∧ ((encLen n).headD 0).msb = true)

/-! ### Command frames -/

/-- R152, R150, R151, R65, R75: FRM.ENCX on a payload the length field can hold, the reply length passed through; a longer payload
is out of range (R205). The host reads `R1` as "unknown" for `UNKNOWN_LEN` (R7) alone, and as that many bytes for any other value
(R154). -/
def Obligations.ExtendedFrameResult : Prop :=
  ∀ s : State, s.request.WellFormed s.cfg →
    let p := s.request.in0
    let body := s.cfg.txMagic.toList ++ [s.request.a.extractLsb' 0 8, s.request.a.extractLsb' 8 8] ++ encLen p.length ++ p
    let c := crc s.cfg.crc16 body
    (p.length ≤ 32767 →
      exec .frmEncx s = .next { s with response := some ⟨.ok, BitVec.ofNat 64 (8 + (encLen p.length).length + p.length),
        (s.request.b.extractLsb' 0 16).setWidth 64, body ++ [c.extractLsb' 8 8, c.extractLsb' 0 8]⟩ }) ∧
    (p.length ≤ 32767 → ∃ r, exec .frmEncx s = .next { s with response := some r } ∧
      (s.request.b.extractLsb' 0 16 = 0xFFFF → r.expected = .unknown) ∧
      (s.request.b.extractLsb' 0 16 ≠ 0xFFFF → r.expected = .concrete (s.request.b.extractLsb' 0 16).toNat)) ∧
    (32767 < p.length → exec .frmEncx s = .next { s with response := some ⟨.operandRange, 0, 0, []⟩ })

/-- R153: a command frame has 9 to 32777 bytes, the bounds are reached, and with `MAX_BUF` at least 32777 FRM.ENCX completes on
every payload it may take, with its frame within `MAX_BUF`. -/
def Obligations.CommandFrameSizes : Prop :=
  (∀ (cfg : Config) (o i : Byte) (p : List Byte), p.length ≤ 32767 →
    9 ≤ (commandFrame cfg o i p).length ∧ (commandFrame cfg o i p).length ≤ 32777 ∧
    (p.length = 0 → (commandFrame cfg o i p).length = 9) ∧ (p.length = 32767 → (commandFrame cfg o i p).length = 32777)) ∧
  ∀ s : State, 32777 ≤ s.cfg.maxBuf → s.request.in0.length ≤ 32767 →
    ∃ t r, exec .frmEncx s = .next t ∧ t.response = some r ∧ r.status = .ok ∧ r.out.length ≤ s.cfg.maxBuf

/-- R156: the laws of FRM.ENCX on every payload it takes: zero residue, the fields at their offsets, the payload verbatim, and no
two operand triples with one frame. -/
def Obligations.CommandFrameLaws : Prop :=
  ∀ s : State, s.cfg.crc16.xorOut = 0 → s.request.WellFormed s.cfg → s.request.in0.length ≤ 32767 →
    let p := s.request.in0
    let k := (encLen p.length).length
    ∃ r, exec .frmEncx s = .next { s with response := some r } ∧ r.status = .ok ∧ crc s.cfg.crc16 r.out = 0 ∧
      r.out.take 4 = s.cfg.txMagic.toList ∧ r.out[4]? = some (s.request.a.extractLsb' 0 8) ∧
      r.out[5]? = some (s.request.a.extractLsb' 8 8) ∧ decLen (r.out.drop 6) = some (p.length, k) ∧
      (r.out.drop (6 + k)).take p.length = p ∧
      ∀ (u : State) (q : Response), u.cfg = s.cfg → exec .frmEncx u = .next { u with response := some q } → q.status = .ok →
        q.out = r.out → u.request.a.extractLsb' 0 16 = s.request.a.extractLsb' 0 16 ∧ u.request.in0 = p

/-- R155, R73: FRM.ENCL. -/
def Obligations.ProbeFrameResult : Prop :=
  ∀ s : State, s.cfg.WellFormed → s.request.WellFormed s.cfg →
    let c := s.request.a.extractLsb' 0 8
    exec .frmEncl s = .next { s with response := some ⟨.ok, 5, BitVec.ofNat 64 (s.cfg.replyLenOf c),
      s.cfg.txMagic.toList ++ [c]⟩ }

/-! ### Reply frames -/

/-- R162, R160, R72: FRM.CHKX on a frame built as R72 lays it out, in either layout, with any spelling of the length field. -/
def Obligations.WellBuiltReplyIsSplit : Prop :=
  ∀ (s : State) (field : List Byte) (l : Nat) (inner : Byte) (body : List Byte), s.request.WellFormed s.cfg →
    decLen field = some (l, field.length) →
    let head := s.cfg.rxMagic.toList ++ [s.cfg.rxExtCmd] ++
      (match s.cfg.rxLayout with | .lenThenInner => field ++ [inner] | .innerThenLen => inner :: field) ++ body
    s.request.in0 = head ++ be16 (crc s.cfg.crc16 head) →
    (s.cfg.rxStrictLength = true → l + s.cfg.rxEnvelopeOverhead + (field.length - 1) = s.request.in0.length) →
    exec .frmChkx s = .next { s with response := some ⟨.ok, BitVec.ofNat 64 l,
      BitVec.ofNat 64 (s.cfg.rxExtCmd.toNat + 2 ^ 8 * inner.toNat + 2 ^ 16 * field.length), body⟩ }

/-- R163, R209, R162, R206: the status of FRM.CHKX is that of the first check that fails, and nothing but the response changes. -/
def Obligations.ReplyChecksRunInOrder : Prop :=
  ∀ s : State, s.request.WellFormed s.cfg →
    let f := s.request.in0
    let n := f.length
    let off := if s.cfg.rxLayout = .lenThenInner then 3 else 4
    let long := (f.getD off 0).msb
    let l := if long then ((f.getD off 0).extractLsb' 0 7 ++ f.getD (off + 1) 0).toNat else (f.getD off 0).toNat
    let k := if long then 2 else 1
    ∃ r, exec .frmChkx s = .next { s with response := some r } ∧
      r.status =
        if n < 7 then .invalidShort
        else if f.take 2 ≠ s.cfg.rxMagic.toList then .invalidMagic
        else if f[2]? ≠ some s.cfg.rxExtCmd then .invalidCmd
        else if f.drop (n - 2) ≠ be16 (crc s.cfg.crc16 (f.take (n - 2))) then .invalidCrc
        else if n < 6 + k then .invalidShort
        else if s.cfg.rxStrictLength = true ∧ l + s.cfg.rxEnvelopeOverhead + (k - 1) ≠ n then .invalidLength
        else .ok

/-- R167, acceptance. -/
def Obligations.BuiltReplyIsAccepted : Prop :=
  ∀ (s : State) (inner : Byte) (body : List Byte), s.cfg.WellFormed → s.cfg.rxLayout = .lenThenInner →
    s.cfg.rxEnvelopeOverhead = 4 → body.length ≤ 32764 →
    let f := s.cfg.rxMagic.toList ++ [s.cfg.rxExtCmd] ++ encLen (body.length + 3) ++ [inner] ++ body
    s.request.in0 = f ++ be16 (crc s.cfg.crc16 f) →
    ∃ r, exec .frmChkx s = .next { s with response := some r } ∧ r.status = .ok ∧ r.out = body ∧
      r.r0 = BitVec.ofNat 64 (body.length + 3)

/-- R167, discovery agrees with validation. -/
def Obligations.DiscoveryAgreesWithValidation : Prop :=
  ∀ (s : State) (inner : Byte) (body : List Byte) (n : Nat), s.cfg.WellFormed → s.cfg.rxLayout = .lenThenInner →
    s.cfg.rxEnvelopeOverhead = 4 → body.length ≤ 32764 →
    let f := s.cfg.rxMagic.toList ++ [s.cfg.rxExtCmd] ++ encLen (body.length + 3) ++ [inner] ++ body
    let frame := f ++ be16 (crc s.cfg.crc16 f)
    5 ≤ n → s.request.in0 = frame.take n →
    ∃ r, exec .frmRxlen s = .next { s with response := some r } ∧ r.status = .ok ∧ r.r0 = BitVec.ofNat 64 frame.length

/-- R167, single-bit corruption is never accepted: flip one bit of a frame that FRM.CHKX accepts, and the status names the first
check that sees it. -/
def Obligations.SingleBitCorruptionIsRejected : Prop :=
  ∀ (s t : State) (r : Response) (i bit : Nat) (h : i < s.request.in0.length), s.cfg.crc16 = ⟨0x1021, 0, 0⟩ →
    exec .frmChkx s = .next t → t.response = some r → r.status = .ok → bit < 8 →
    let f' := s.request.in0.set i (s.request.in0[i] ^^^ BitVec.twoPow 8 bit)
    let s' : State := { s with request := { s.request with in0 := f' } }
    let status : Status := if i < 2 then .invalidMagic else if i = 2 then .invalidCmd else .invalidCrc
    exec .frmChkx s' = .next { s' with response := some ⟨status, 0, 0, []⟩ }

/-- R167, direction: a command frame is no valid reply unless the two magics agree. -/
def Obligations.CommandFrameIsNoReply : Prop :=
  ∀ (s : State) (o i : Byte) (p : List Byte), s.cfg.WellFormed → p.length ≤ 32767 →
    s.cfg.txMagic.toList.take 2 ≠ s.cfg.rxMagic.toList → s.request.in0 = commandFrame s.cfg o i p →
    exec .frmChkx s = .next { s with response := some ⟨.invalidMagic, 0, 0, []⟩ }

/-- R162 (corner cases), R242: zero bytes after an accepted frame pass the trailer check; the strict length check alone catches
them, and without it the old trailer and the padding become body. -/
def Obligations.ZeroPaddingIsCaughtByLengthOnly : Prop :=
  ∀ (s t : State) (r : Response) (p : Nat), s.cfg.crc16 = ⟨0x1021, 0, 0⟩ → exec .frmChkx s = .next t → t.response = some r →
    r.status = .ok → 0 < p → s.request.in0.length + p ≤ s.cfg.maxBuf →
    let s' : State := { s with request := { s.request with in0 := s.request.in0 ++ List.replicate p 0 } }
    let grown := r.out ++ (s.request.in0.drop (s.request.in0.length - 2) ++ List.replicate p 0).take p
    hasCorrectTrailer s.cfg s'.request.in0 = true ∧
    (s.cfg.rxStrictLength = true → exec .frmChkx s' = .next { s' with response := some ⟨.invalidLength, 0, 0, []⟩ }) ∧
    (s.cfg.rxStrictLength = false →
      exec .frmChkx s' = .next { s' with response := some ⟨.ok, r.r0, r.r1, grown⟩ })

/-- R164, R207: FRM.RXLEN. Where the declared total does not fit 64 bits the spec states no `R0`, and nothing is said of it
(notes entry 8). -/
def Obligations.ReplyLengthDiscovery : Prop :=
  ∀ s : State, s.request.WellFormed s.cfg →
    let f := s.request.in0
    let off := if s.cfg.rxLayout = .lenThenInner then 3 else 4
    let long := (f.getD off 0).msb
    let l := if long then ((f.getD off 0).extractLsb' 0 7 ++ f.getD (off + 1) 0).toNat else (f.getD off 0).toNat
    let k := if long then 2 else 1
    let total := l + s.cfg.rxEnvelopeOverhead + (k - 1)
    (f.length ≤ 4 ∨ f.length < off + k → exec .frmRxlen s = .next { s with response := some ⟨.needMore, 0, 0, []⟩ }) ∧
    (4 < f.length → off + k ≤ f.length →
      ∃ r0, exec .frmRxlen s = .next { s with response := some ⟨.ok, r0, BitVec.ofNat 64 k, []⟩ } ∧
        (total < 2 ^ 64 → r0 = BitVec.ofNat 64 total))

/-- R166, R74: FRM.CHKL, its checks in order. -/
def Obligations.LegacyReplyResult : Prop :=
  ∀ s : State, s.cfg.WellFormed → s.request.WellFormed s.cfg →
    let f := s.request.in0
    let c := s.request.a.extractLsb' 0 8
    let x := s.cfg.arrangementOf c
    let m := if x = .a then s.cfg.legacyRxMagicA else s.cfg.legacyRxMagicB
    let n := s.cfg.replyLenOf c
    let r : Response :=
      if f.length < m.length then ⟨.invalidShort, 0, 0, []⟩
      else if f.take m.length ≠ m then ⟨.invalidMagic, 0, 0, []⟩
      else if f.length < n then ⟨.invalidShort, 0, 0, []⟩
      else if n < f.length ∧ s.cfg.rxStrictLength = true then ⟨.invalidLength, 0, 0, []⟩
      else ⟨.ok, if x = .a then 0 else 1, BitVec.ofNat 64 n, (f.take n).drop m.length⟩
    exec .frmChkl s = .next { s with response := some r }

/-! ### Field codec -/

/-- R181, R180, R9: INT.WRAP, the kept bits read as an unsigned or a two's-complement number. -/
def Obligations.IntWrapResult : Prop :=
  ∀ s : State, s.request.WellFormed s.cfg →
    let a := s.request.a
    let give (r0 : Scalar) : Host.Outcome State Fault Refusal := .next { s with response := some ⟨.ok, r0, 0, []⟩ }
    exec .intWrapU8 s = give (BitVec.ofNat 64 (a.toNat % 2 ^ 8)) ∧
    exec .intWrapU16 s = give (BitVec.ofNat 64 (a.toNat % 2 ^ 16)) ∧
    exec .intWrapU32 s = give (BitVec.ofNat 64 a.toNat) ∧
    exec .intWrapS8 s = give (BitVec.ofInt 64 (Int.bmod a.toNat (2 ^ 8))) ∧
    exec .intWrapS16 s = give (BitVec.ofInt 64 (Int.bmod a.toNat (2 ^ 16))) ∧
    exec .intWrapS32 s = give (BitVec.ofInt 64 (Int.bmod a.toNat (2 ^ 32)))

/-- R182, R43: INT.PACK, the least significant byte first, the same bytes for both signs. -/
def Obligations.IntPackResult : Prop :=
  ∀ s : State, s.request.WellFormed s.cfg →
    let byte (j : Nat) : Byte := s.request.a.extractLsb' (8 * j) 8
    let give (r0 : Scalar) (out : List Byte) : Host.Outcome State Fault Refusal :=
      .next { s with response := some ⟨.ok, r0, 0, out⟩ }
    exec .intPackU8 s = give 1 [byte 0] ∧ exec .intPackS8 s = give 1 [byte 0] ∧
    exec .intPackU16 s = give 2 [byte 0, byte 1] ∧ exec .intPackS16 s = give 2 [byte 0, byte 1] ∧
    exec .intPackU32 s = give 4 [byte 0, byte 1, byte 2, byte 3] ∧ exec .intPackS32 s = give 4 [byte 0, byte 1, byte 2, byte 3]

/-- R183, R43: INT.UNPACK, the bytes after the field ignored. -/
def Obligations.IntUnpackResult : Prop :=
  ∀ s : State, s.request.WellFormed s.cfg →
    let give (r0 : Scalar) : Host.Outcome State Fault Refusal := .next { s with response := some ⟨.ok, r0, 0, []⟩ }
    let short : Host.Outcome State Fault Refusal := .next { s with response := some ⟨.invalidShort, 0, 0, []⟩ }
    (∀ (b0 : Byte) (rest : List Byte), s.request.in0 = b0 :: rest →
      exec .intUnpackU8 s = give (b0.setWidth 64) ∧ exec .intUnpackS8 s = give (BitVec.ofInt 64 b0.toInt)) ∧
    (∀ (b0 b1 : Byte) (rest : List Byte), s.request.in0 = b0 :: b1 :: rest →
      exec .intUnpackU16 s = give ((b1 ++ b0).setWidth 64) ∧
      exec .intUnpackS16 s = give (BitVec.ofInt 64 (b1 ++ b0).toInt)) ∧
    (∀ (b0 b1 b2 b3 : Byte) (rest : List Byte), s.request.in0 = b0 :: b1 :: b2 :: b3 :: rest →
      exec .intUnpackU32 s = give ((b3 ++ b2 ++ b1 ++ b0).setWidth 64) ∧
      exec .intUnpackS32 s = give (BitVec.ofInt 64 (b3 ++ b2 ++ b1 ++ b0).toInt)) ∧
    (s.request.in0.length < 1 → exec .intUnpackU8 s = short ∧ exec .intUnpackS8 s = short) ∧
    (s.request.in0.length < 2 → exec .intUnpackU16 s = short ∧ exec .intUnpackS16 s = short) ∧
    (s.request.in0.length < 4 → exec .intUnpackU32 s = short ∧ exec .intUnpackS32 s = short)

/-- R181 to R183: a field written by INT.PACK and read by INT.UNPACK of the same form, whatever follows it, is the value INT.WRAP
gives. -/
def Obligations.PackThenUnpackIsWrap : Prop :=
  ∀ (s : State) (a b : Operand) (rest : List Byte), rest.length + 4 ≤ s.cfg.maxBuf →
    ∀ p ∈ [(Instr.intPackU8, Instr.intUnpackU8, Instr.intWrapU8), (.intPackU16, .intUnpackU16, .intWrapU16),
        (.intPackU32, .intUnpackU32, .intWrapU32), (.intPackS8, .intUnpackS8, .intWrapS8),
        (.intPackS16, .intUnpackS16, .intWrapS16), (.intPackS32, .intUnpackS32, .intWrapS32)],
    ∃ o r t u v, observe [requestFor p.1 a b []] s = .next ([o], t) ∧
      observe [requestFor p.2.1 b a (o.out ++ rest)] s = .next ([r], u) ∧
      observe [requestFor p.2.2 a b []] s = .next ([r], v) ∧ r.status = .ok

/-- R184: STR.TRIM keeps the bytes before the first null byte, all of them where there is none. Where their number does not fit 64 bits
the spec states no `R0`, and nothing is said of it (notes entry 8). -/
def Obligations.StringIsTrimmedAtFirstNull : Prop :=
  ∀ (s : State) (kept : List Byte), s.request.WellFormed s.cfg → 0 ∉ kept →
    (s.request.in0 = kept ∨ ∃ rest, s.request.in0 = kept ++ 0 :: rest) →
    ∃ r0, exec .strTrim s = .next { s with response := some ⟨.ok, r0, 0, kept⟩ } ∧
      (kept.length < 2 ^ 64 → r0 = BitVec.ofNat 64 kept.length)

/-- R185, R186, R205: the two timestamp conversions. -/
def Obligations.TimestampConversions : Prop :=
  ∀ s : State, s.request.WellFormed s.cfg →
    (∃ r0, exec .timeJ2u s = .next { s with response := some ⟨.ok, r0, 0, []⟩ } ∧
      r0.toNat = s.request.a.toNat + 946684800) ∧
    (946684800 ≤ s.request.a.toNat → ∃ r0, exec .timeU2j s = .next { s with response := some ⟨.ok, r0, 0, []⟩ } ∧
      r0.toNat = s.request.a.toNat - 946684800) ∧
    (s.request.a.toNat < 946684800 → exec .timeU2j s = .next { s with response := some ⟨.operandRange, 0, 0, []⟩ })

/-- R186 (corner cases): TIME.J2U after TIME.U2J returns the input. -/
def Obligations.TimestampRoundTrip : Prop :=
  ∀ (s : State) (a : Operand), 946684800 ≤ a.toNat →
    ∃ o r t u, observe [requestFor .timeU2j a 0 []] s = .next ([o], t) ∧
      observe [requestFor .timeJ2u (o.r0.setWidth 32) 0 []] s = .next ([r], u) ∧ r.r0 = a.setWidth 64
end

