-- ==== Sys2Proof/Laws/Bytes.lean ====
section
/-! SUPPORT. Lengths and positions of the byte strings the rules build and cut. -/

namespace Sys2Proof.Machine

@[simp] theorem be16_length (v : BitVec 16) : (be16 v).length = 2 := rfl

@[simp] theorem leBytes_length (n : Nat) (v : Operand) : (leBytes n v).length = n := by
  induction n generalizing v with
  | zero => rfl
  | succ n ih => simp [leBytes, ih]

/-- A bit field is a shift followed by a truncation. -/
theorem field_eq_shift {w : Nat} (x : BitVec w) (lo n : Nat) : x.extractLsb' lo n = (x >>> lo).setWidth n := by
  apply BitVec.eq_of_getLsbD_eq
  intro i h
  simp [h]

/-- The low bit field is a truncation. -/
theorem low_field_eq {w : Nat} (x : BitVec w) (n : Nat) : x.extractLsb' 0 n = x.setWidth n := by
  rw [field_eq_shift, BitVec.ushiftRight_zero]

/-- Reading a big-endian pair gives back the value it was written from. -/
theorem word16_be16 (v : BitVec 16) : word16 (v.extractLsb' 8 8) (v.extractLsb' 0 8) = v := by
  apply BitVec.eq_of_getLsbD_eq
  intro i h
  simp only [word16, BitVec.getLsbD_or, BitVec.getLsbD_shiftLeft, BitVec.getLsbD_setWidth, BitVec.getLsbD_extractLsb']
  by_cases h8 : i < 8
  · simp [h8, h]
  · have h3 : i - 8 < 8 := by omega
    have h4 : i - 8 < 16 := by omega
    have h5 : 8 + (i - 8) = i := by omega
    simp [h8, h, h3, h4, h5]

theorem zext64_of_lt {v : Nat} (h : v < 2 ^ 64) : zext64 v = BitVec.ofNat 64 v := if_pos h

@[simp] theorem slice_length (s : List Byte) (i j : Nat) : (slice s i j).length = min (j - i) (s.length - i) := by
  simp [slice]

@[simp] theorem slice_zero (s : List Byte) (j : Nat) : slice s 0 j = s.take j := by simp [slice]

theorem slice_to_end (s : List Byte) (i : Nat) : slice s i s.length = s.drop i := by
  simp [slice]

/-- The length field takes one byte or two. -/
theorem encLen_length (n : Nat) : (encLen n).length = if n ≤ 127 then 1 else 2 := by
  unfold encLen shortLenMax
  split <;> rfl

@[simp] theorem frameBody_length (cfg : Config) (o i : Byte) (p : List Byte) :
    (frameBody cfg o i p).length = 6 + (encLen p.length).length + p.length := by
  simp [frameBody]
  omega

@[simp] theorem commandFrame_length (cfg : Config) (o i : Byte) (p : List Byte) :
    (commandFrame cfg o i p).length = 8 + (encLen p.length).length + p.length := by
  simp [commandFrame]
  omega

/-- What an expected reply length can be read as: a concrete length is never 65535, the sentinel's value (R154, R244). -/
theorem expectedReply_cases (e : BitVec 16) :
    (e = unknownLen ∧ expectedReply e = .unknown) ∨
      (e ≠ unknownLen ∧ expectedReply e = .concrete e.toNat ∧ e.toNat < 65535) := by
  by_cases h : e = unknownLen
  · exact .inl ⟨h, if_pos h⟩
  · have hne : e.toNat ≠ 65535 := fun hn => h (BitVec.eq_of_toNat_eq hn)
    have hlt := e.isLt
    exact .inr ⟨h, if_neg h, by omega⟩

/-- The host reads from `R1` the 16 bits that FRM.ENCX passes through. -/
theorem Response.expected_done (r0 : Scalar) (e : BitVec 16) (out : List Byte) :
    (Response.done r0 (e.setWidth 64) out).expected = expectedReply e := by
  change expectedReply ((e.setWidth 64).setWidth 16) = expectedReply e
  rw [BitVec.setWidth_setWidth_of_le _ (by decide), BitVec.setWidth_eq]

/-- `dec_len` answers on any string of at least two bytes, and takes one byte or two. -/
theorem decLen_of_two_le {s : List Byte} (h : 2 ≤ s.length) : ∃ l k, decLen s = some (l, k) ∧ (k = 1 ∨ k = 2) ∧ l < 2 ^ 15 := by
  match s, h with
  | b :: c :: rest, _ =>
    have hc := c.isLt
    have hb : (b &&& 0x7F).toNat < 2 ^ 7 := by
      rw [BitVec.toNat_and]; exact Nat.lt_of_le_of_lt Nat.and_le_right (by decide)
    by_cases hm : b.msb
    · refine ⟨(b &&& 0x7F).toNat <<< 8 ||| c.toNat, 2, by simp [decLen, hm], .inr rfl, ?_⟩
      have h15 : (b &&& 0x7F).toNat <<< 8 < 2 ^ 15 := by rw [Nat.shiftLeft_eq]; omega
      exact Nat.or_lt_two_pow h15 (by omega)
    · exact ⟨b.toNat, 1, by simp [decLen, hm], .inl rfl, by have := b.isLt; omega⟩

end Sys2Proof.Machine
end

