-- ==== Sys2Proof/Laws/Config.lean ====
section
/-! SUPPORT. Lookups in the tables of a configuration. -/

namespace Sys2Proof

@[simp] theorem tableAt_byteTable {α : Type} (f : Byte → α) (c : Byte) : tableAt (byteTable f) c = f c := by
  simp [tableAt, byteTable]

namespace Machine

theorem openMagic_length (m : Byte × List Byte) : 1 ≤ (openMagic m).length ∧ (openMagic m).length ≤ 8 := by
  simp [openMagic]

theorem deviceReplyLen_bounds (c : Byte) :
    (deviceLegacyMagic (Config.openLegacyArrangement c)).length ≤ deviceReplyLen c ∧ deviceReplyLen c ≤ 65535 := by
  have h : ∀ x, (deviceLegacyMagic x).length ≤ 8 := by
    intro x
    cases x <;> exact (openMagic_length _).2
  have := h (Config.openLegacyArrangement c)
  unfold deviceReplyLen
  omega

end Machine

end Sys2Proof
end

