-- ==== Sys2Proof/Laws/Crc.lean ====
section
/-! SUPPORT. The CRC loop over a concatenation, and the linearity of its inner loop. -/

namespace Sys2Proof.Machine

@[simp] theorem crcFeed_nil {w : Nat} (poly acc : BitVec w) : crcFeed poly acc [] = acc := rfl

@[simp] theorem crcFeed_cons {w : Nat} (poly acc : BitVec w) (b : Byte) (s : List Byte) :
    crcFeed poly acc (b :: s) = crcFeed poly (crcStep poly acc b) s := rfl

theorem crcFeed_append {w : Nat} (poly acc : BitVec w) (x y : List Byte) :
    crcFeed poly acc (x ++ y) = crcFeed poly (crcFeed poly acc x) y := by
  induction x generalizing acc with
  | nil => rfl
  | cons b x ih => exact ih _

theorem crcFeed_eq_foldl {w : Nat} (poly acc : BitVec w) (s : List Byte) :
    crcFeed poly acc s = s.foldl (crcStep poly) acc := by
  induction s generalizing acc with
  | nil => rfl
  | cons b s ih => exact ih _

theorem xor_swap {w : Nat} (a b c : BitVec w) : a ^^^ (b ^^^ c) = b ^^^ (a ^^^ c) := by
  rw [← BitVec.xor_assoc, BitVec.xor_comm a b, BitVec.xor_assoc]

/-- One turn of the loop is linear over exclusive-or. -/
theorem crcShift_xor {w : Nat} (poly x y : BitVec w) : crcShift poly (x ^^^ y) = crcShift poly x ^^^ crcShift poly y := by
  unfold crcShift
  rw [BitVec.msb_xor, BitVec.shiftLeft_xor_distrib]
  cases x.msb <;> cases y.msb <;> simp [BitVec.xor_comm, xor_swap]

theorem crcShifts_xor {w : Nat} (poly : BitVec w) (n : Nat) (x y : BitVec w) :
    crcShifts poly n (x ^^^ y) = crcShifts poly n x ^^^ crcShifts poly n y := by
  induction n generalizing x y with
  | zero => rfl
  | succ n ih => simp only [crcShifts, crcShift_xor, ih]

@[simp] theorem crcShift_zero {w : Nat} (poly : BitVec w) : crcShift poly 0#w = 0#w := by
  simp [crcShift]

@[simp] theorem crcShifts_zero {w : Nat} (poly : BitVec w) (n : Nat) : crcShifts poly n 0#w = 0#w := by
  induction n with
  | zero => rfl
  | succ n ih => rw [crcShifts, crcShift_zero, ih]

theorem crcShifts_add {w : Nat} (poly : BitVec w) (m n : Nat) (x : BitVec w) :
    crcShifts poly (m + n) x = crcShifts poly n (crcShifts poly m x) := by
  induction m generalizing x with
  | zero => simp [crcShifts]
  | succ m ih => rw [Nat.succ_add, crcShifts, ih, crcShifts]

end Sys2Proof.Machine
end

