-- ==== Sys2Proof/Laws/State.lean ====
section
/-! SUPPORT. What each update of the state does to each field. -/

namespace Sys2Proof.Machine

@[simp] theorem State.setAcc8_cfg (s : State) (v : BitVec 8) : (s.setAcc8 v).cfg = s.cfg := rfl
@[simp] theorem State.setAcc8_acc8 (s : State) (v : BitVec 8) : (s.setAcc8 v).acc8 = v := rfl
@[simp] theorem State.setAcc8_acc16 (s : State) (v : BitVec 8) : (s.setAcc8 v).acc16 = s.acc16 := rfl
@[simp] theorem State.setAcc8_acc32 (s : State) (v : BitVec 8) : (s.setAcc8 v).acc32 = s.acc32 := rfl
@[simp] theorem State.setAcc8_request (s : State) (v : BitVec 8) : (s.setAcc8 v).request = s.request := rfl
@[simp] theorem State.setAcc8_response (s : State) (v : BitVec 8) : (s.setAcc8 v).response = s.response := rfl
@[simp] theorem State.setAcc8_host (s : State) (v : BitVec 8) : (s.setAcc8 v).host = s.host := rfl

@[simp] theorem State.setAcc16_cfg (s : State) (v : BitVec 16) : (s.setAcc16 v).cfg = s.cfg := rfl
@[simp] theorem State.setAcc16_acc8 (s : State) (v : BitVec 16) : (s.setAcc16 v).acc8 = s.acc8 := rfl
@[simp] theorem State.setAcc16_acc16 (s : State) (v : BitVec 16) : (s.setAcc16 v).acc16 = v := rfl
@[simp] theorem State.setAcc16_acc32 (s : State) (v : BitVec 16) : (s.setAcc16 v).acc32 = s.acc32 := rfl
@[simp] theorem State.setAcc16_request (s : State) (v : BitVec 16) : (s.setAcc16 v).request = s.request := rfl
@[simp] theorem State.setAcc16_response (s : State) (v : BitVec 16) : (s.setAcc16 v).response = s.response := rfl
@[simp] theorem State.setAcc16_host (s : State) (v : BitVec 16) : (s.setAcc16 v).host = s.host := rfl

@[simp] theorem State.setAcc32_cfg (s : State) (v : BitVec 32) : (s.setAcc32 v).cfg = s.cfg := rfl
@[simp] theorem State.setAcc32_acc8 (s : State) (v : BitVec 32) : (s.setAcc32 v).acc8 = s.acc8 := rfl
@[simp] theorem State.setAcc32_acc16 (s : State) (v : BitVec 32) : (s.setAcc32 v).acc16 = s.acc16 := rfl
@[simp] theorem State.setAcc32_acc32 (s : State) (v : BitVec 32) : (s.setAcc32 v).acc32 = v := rfl
@[simp] theorem State.setAcc32_request (s : State) (v : BitVec 32) : (s.setAcc32 v).request = s.request := rfl
@[simp] theorem State.setAcc32_response (s : State) (v : BitVec 32) : (s.setAcc32 v).response = s.response := rfl
@[simp] theorem State.setAcc32_host (s : State) (v : BitVec 32) : (s.setAcc32 v).host = s.host := rfl

@[simp] theorem State.respond_cfg (s : State) (r : Response) : (s.respond r).cfg = s.cfg := rfl
@[simp] theorem State.respond_acc8 (s : State) (r : Response) : (s.respond r).acc8 = s.acc8 := rfl
@[simp] theorem State.respond_acc16 (s : State) (r : Response) : (s.respond r).acc16 = s.acc16 := rfl
@[simp] theorem State.respond_acc32 (s : State) (r : Response) : (s.respond r).acc32 = s.acc32 := rfl
@[simp] theorem State.respond_request (s : State) (r : Response) : (s.respond r).request = s.request := rfl
@[simp] theorem State.respond_response (s : State) (r : Response) : (s.respond r).response = some r := rfl
@[simp] theorem State.respond_host (s : State) (r : Response) : (s.respond r).host = s.host := rfl

@[simp] theorem State.raise_cfg (s : State) (x : Status) : (s.raise x).cfg = s.cfg := rfl
@[simp] theorem State.raise_acc8 (s : State) (x : Status) : (s.raise x).acc8 = s.acc8 := rfl
@[simp] theorem State.raise_acc16 (s : State) (x : Status) : (s.raise x).acc16 = s.acc16 := rfl
@[simp] theorem State.raise_acc32 (s : State) (x : Status) : (s.raise x).acc32 = s.acc32 := rfl
@[simp] theorem State.raise_request (s : State) (x : Status) : (s.raise x).request = s.request := rfl
@[simp] theorem State.raise_response (s : State) (x : Status) : (s.raise x).response = some (.raised x) := rfl
@[simp] theorem State.raise_host (s : State) (x : Status) : (s.raise x).host = s.host := rfl

@[simp] theorem State.present_cfg (s : State) (r : Request) (rest : List HostMove) : (s.present r rest).cfg = s.cfg := rfl
@[simp] theorem State.present_acc8 (s : State) (r : Request) (rest : List HostMove) : (s.present r rest).acc8 = s.acc8 := rfl
@[simp] theorem State.present_acc16 (s : State) (r : Request) (rest : List HostMove) : (s.present r rest).acc16 = s.acc16 := rfl
@[simp] theorem State.present_acc32 (s : State) (r : Request) (rest : List HostMove) : (s.present r rest).acc32 = s.acc32 := rfl
@[simp] theorem State.present_request (s : State) (r : Request) (rest : List HostMove) : (s.present r rest).request = r := rfl
@[simp] theorem State.present_response (s : State) (r : Request) (rest : List HostMove) : (s.present r rest).response = s.response := rfl
@[simp] theorem State.present_host (s : State) (r : Request) (rest : List HostMove) : (s.present r rest).host = rest := rfl

@[simp] theorem State.withHost_cfg (s : State) (rest : List HostMove) : (s.withHost rest).cfg = s.cfg := rfl
@[simp] theorem State.withHost_acc8 (s : State) (rest : List HostMove) : (s.withHost rest).acc8 = s.acc8 := rfl
@[simp] theorem State.withHost_acc16 (s : State) (rest : List HostMove) : (s.withHost rest).acc16 = s.acc16 := rfl
@[simp] theorem State.withHost_acc32 (s : State) (rest : List HostMove) : (s.withHost rest).acc32 = s.acc32 := rfl
@[simp] theorem State.withHost_request (s : State) (rest : List HostMove) : (s.withHost rest).request = s.request := rfl
@[simp] theorem State.withHost_response (s : State) (rest : List HostMove) : (s.withHost rest).response = s.response := rfl
@[simp] theorem State.withHost_host (s : State) (rest : List HostMove) : (s.withHost rest).host = rest := rfl

@[simp] theorem State.applyReset_cfg (s : State) : (s.applyReset).cfg = s.cfg := rfl
@[simp] theorem State.applyReset_acc8 (s : State) : (s.applyReset).acc8 = s.cfg.crc8.init := rfl
@[simp] theorem State.applyReset_acc16 (s : State) : (s.applyReset).acc16 = s.cfg.crc16.init := rfl
@[simp] theorem State.applyReset_acc32 (s : State) : (s.applyReset).acc32 = s.cfg.crc32.init := rfl
@[simp] theorem State.applyReset_request (s : State) : (s.applyReset).request = s.request := rfl
@[simp] theorem State.applyReset_response (s : State) : (s.applyReset).response = none := rfl
@[simp] theorem State.applyReset_host (s : State) : (s.applyReset).host = s.host := rfl

@[simp] theorem State.idle_eq (s : State) : s.idle = s := rfl
@[simp] theorem State.rejectIllegal_eq (s : State) : s.rejectIllegal = s.raise .illegalOp := rfl
@[simp] theorem State.respond_respond (s : State) (r r' : Response) : (s.respond r).respond r' = s.respond r' := rfl
@[simp] theorem State.withHost_opIn (s : State) (rest : List HostMove) : (s.withHost rest).opIn = s.opIn := rfl
@[simp] theorem State.present_opIn (s : State) (r : Request) (rest : List HostMove) : (s.present r rest).opIn = r.in0 := rfl

@[simp] theorem Response.raised_status (x : Status) : (Response.raised x).status = x := rfl
@[simp] theorem Response.raised_r0 (x : Status) : (Response.raised x).r0 = 0 := rfl
@[simp] theorem Response.raised_r1 (x : Status) : (Response.raised x).r1 = 0 := rfl
@[simp] theorem Response.raised_out (x : Status) : (Response.raised x).out = [] := rfl
@[simp] theorem Response.done_status (a b : Scalar) (o : List Byte) : (Response.done a b o).status = .ok := rfl
@[simp] theorem Response.done_r0 (a b : Scalar) (o : List Byte) : (Response.done a b o).r0 = a := rfl
@[simp] theorem Response.done_r1 (a b : Scalar) (o : List Byte) : (Response.done a b o).r1 = b := rfl
@[simp] theorem Response.done_out (a b : Scalar) (o : List Byte) : (Response.done a b o).out = o := rfl

end Sys2Proof.Machine
end

