-- ==== Sys2Proof/Laws/Ops.lean ====
section
/-! SUPPORT. What each shared operation can do, said once. -/

namespace Sys2Proof.Machine

theorem State.inputTooLong_iff (s : State) : s.inputTooLong = true ↔ s.cfg.maxBuf < s.opIn.length := by
  simp [State.inputTooLong]

/-- The buffer check passes on a request as R60 defines it. -/
theorem State.checked_of_fits {s : State} (h : s.request.WellFormed s.cfg) (t : State) : s.checked t = t := by
  have h' : ¬ s.inputTooLong = true := by rw [State.inputTooLong_iff]; exact Nat.not_lt.mpr h
  simp [State.checked, h']

/-- The buffer check fails on any other. -/
theorem State.checked_of_tooLong {s : State} (h : s.cfg.maxBuf < s.opIn.length) (t : State) :
    s.checked t = s.raise .operandRange := by
  simp [State.checked, (State.inputTooLong_iff s).mpr h]

/-- All the buffer check can do. -/
theorem State.checked_cases (s t : State) :
    (s.cfg.maxBuf < s.opIn.length ∧ s.checked t = s.raise .operandRange) ∨
      (s.request.WellFormed s.cfg ∧ s.checked t = t) := by
  by_cases h : s.cfg.maxBuf < s.opIn.length
  · exact .inl ⟨h, s.checked_of_tooLong h t⟩
  · exact .inr ⟨Nat.not_lt.mp h, s.checked_of_fits (Nat.not_lt.mp h) t⟩

/-- The shape of every meaning: after the buffer check, a response, and for the writers of an engine its accumulator. -/
theorem exec_cases (i : Instr) (s : State) :
    ∃ r : Response,
      exec i s = .next (s.checked (s.respond r)) ∨
      (i ∈ [.crc8Clr, .crc8Ld, .crc8Upd, .crc8Blk] ∧ r.status = .ok ∧ r.out = [] ∧
        ∃ v, exec i s = .next (s.checked ((s.setAcc8 v).respond r))) ∨
      (i ∈ [.crc16Clr, .crc16Ld, .crc16Upd, .crc16Blk] ∧ r.status = .ok ∧ r.out = [] ∧
        ∃ v, exec i s = .next (s.checked ((s.setAcc16 v).respond r))) ∨
      (i ∈ [.crc32Clr, .crc32Ld, .crc32Upd, .crc32Blk] ∧ r.status = .ok ∧ r.out = [] ∧
        ∃ v, exec i s = .next (s.checked ((s.setAcc32 v).respond r))) := by
  cases i
  case crc8Clr | crc8Ld | crc8Upd | crc8Blk => exact ⟨_, .inr (.inl ⟨by simp, rfl, rfl, _, rfl⟩)⟩
  case crc16Clr | crc16Ld | crc16Upd | crc16Blk => exact ⟨_, .inr (.inr (.inl ⟨by simp, rfl, rfl, _, rfl⟩))⟩
  case crc32Clr | crc32Ld | crc32Upd | crc32Blk => exact ⟨_, .inr (.inr (.inr ⟨by simp, rfl, rfl, _, rfl⟩))⟩
  all_goals exact ⟨_, .inl rfl⟩

/-- All a step can do: hold the state, reset, reject the request, or run the operation it selects. -/
theorem step_cases (s : State) :
    (s.host = [] ∧ step s = .next s) ∨
    (∃ rest, s.host = .reset :: rest ∧ step s = .next (s.withHost rest).applyReset) ∨
    (∃ r rest e, s.host = .request r :: rest ∧ decode r.cw = .error e ∧ step s = .next ((s.present r rest).raise .illegalOp)) ∨
    (∃ r rest i, s.host = .request r :: rest ∧ decode r.cw = .ok i ∧ step s = exec i (s.present r rest)) := by
  unfold step
  split
  case h_1 h => exact .inl ⟨h, rfl⟩
  case h_2 rest h => exact .inr (.inl ⟨rest, h, rfl⟩)
  case h_3 r rest h =>
    split
    case h_1 e hd => exact .inr (.inr (.inl ⟨r, rest, e, h, hd, rfl⟩))
    case h_2 i hd => exact .inr (.inr (.inr ⟨r, rest, i, h, hd, rfl⟩))

end Sys2Proof.Machine
end

