-- ==== Sys2Proof/Laws/PerInstr.lean ====
section
/-! SUPPORT. One family of lemmas over the operations: the two fields of an operation's command word are the ones it is encoded
from (spec/30_encoding.md R62). -/

namespace Sys2Proof.Laws

/-- `OPC` and `MOD` of the encoded word are the operation's own (R62). -/
def ModifierField.Statement (i : Instr) : Prop := opcOf (encode i) = i.opc ∧ modOf (encode i) = i.modifier

theorem ModifierField.crc8Clr : ModifierField.Statement .crc8Clr := ⟨by decide, by decide⟩
theorem ModifierField.crc8Ld : ModifierField.Statement .crc8Ld := ⟨by decide, by decide⟩
theorem ModifierField.crc8Upd : ModifierField.Statement .crc8Upd := ⟨by decide, by decide⟩
theorem ModifierField.crc8Blk : ModifierField.Statement .crc8Blk := ⟨by decide, by decide⟩
theorem ModifierField.crc8Rd : ModifierField.Statement .crc8Rd := ⟨by decide, by decide⟩
theorem ModifierField.crc8Calc : ModifierField.Statement .crc8Calc := ⟨by decide, by decide⟩
theorem ModifierField.crc8Tbl : ModifierField.Statement .crc8Tbl := ⟨by decide, by decide⟩
theorem ModifierField.crc16Clr : ModifierField.Statement .crc16Clr := ⟨by decide, by decide⟩
theorem ModifierField.crc16Ld : ModifierField.Statement .crc16Ld := ⟨by decide, by decide⟩
theorem ModifierField.crc16Upd : ModifierField.Statement .crc16Upd := ⟨by decide, by decide⟩
theorem ModifierField.crc16Blk : ModifierField.Statement .crc16Blk := ⟨by decide, by decide⟩
theorem ModifierField.crc16Rd : ModifierField.Statement .crc16Rd := ⟨by decide, by decide⟩
theorem ModifierField.crc16Calc : ModifierField.Statement .crc16Calc := ⟨by decide, by decide⟩
theorem ModifierField.crc16Tbl : ModifierField.Statement .crc16Tbl := ⟨by decide, by decide⟩
theorem ModifierField.crc32Clr : ModifierField.Statement .crc32Clr := ⟨by decide, by decide⟩
theorem ModifierField.crc32Ld : ModifierField.Statement .crc32Ld := ⟨by decide, by decide⟩
theorem ModifierField.crc32Upd : ModifierField.Statement .crc32Upd := ⟨by decide, by decide⟩
theorem ModifierField.crc32Blk : ModifierField.Statement .crc32Blk := ⟨by decide, by decide⟩
theorem ModifierField.crc32Rd : ModifierField.Statement .crc32Rd := ⟨by decide, by decide⟩
theorem ModifierField.crc32Calc : ModifierField.Statement .crc32Calc := ⟨by decide, by decide⟩
theorem ModifierField.crc32Tbl : ModifierField.Statement .crc32Tbl := ⟨by decide, by decide⟩
theorem ModifierField.lenEnc : ModifierField.Statement .lenEnc := ⟨by decide, by decide⟩
theorem ModifierField.lenDec : ModifierField.Statement .lenDec := ⟨by decide, by decide⟩
theorem ModifierField.frmEncx : ModifierField.Statement .frmEncx := ⟨by decide, by decide⟩
theorem ModifierField.frmEncl : ModifierField.Statement .frmEncl := ⟨by decide, by decide⟩
theorem ModifierField.frmChkx : ModifierField.Statement .frmChkx := ⟨by decide, by decide⟩
theorem ModifierField.frmRxlen : ModifierField.Statement .frmRxlen := ⟨by decide, by decide⟩
theorem ModifierField.frmChkl : ModifierField.Statement .frmChkl := ⟨by decide, by decide⟩
theorem ModifierField.intWrapU8 : ModifierField.Statement .intWrapU8 := ⟨by decide, by decide⟩
theorem ModifierField.intWrapU16 : ModifierField.Statement .intWrapU16 := ⟨by decide, by decide⟩
theorem ModifierField.intWrapU32 : ModifierField.Statement .intWrapU32 := ⟨by decide, by decide⟩
theorem ModifierField.intWrapS8 : ModifierField.Statement .intWrapS8 := ⟨by decide, by decide⟩
theorem ModifierField.intWrapS16 : ModifierField.Statement .intWrapS16 := ⟨by decide, by decide⟩
theorem ModifierField.intWrapS32 : ModifierField.Statement .intWrapS32 := ⟨by decide, by decide⟩
theorem ModifierField.intPackU8 : ModifierField.Statement .intPackU8 := ⟨by decide, by decide⟩
theorem ModifierField.intPackU16 : ModifierField.Statement .intPackU16 := ⟨by decide, by decide⟩
theorem ModifierField.intPackU32 : ModifierField.Statement .intPackU32 := ⟨by decide, by decide⟩
theorem ModifierField.intPackS8 : ModifierField.Statement .intPackS8 := ⟨by decide, by decide⟩
theorem ModifierField.intPackS16 : ModifierField.Statement .intPackS16 := ⟨by decide, by decide⟩
theorem ModifierField.intPackS32 : ModifierField.Statement .intPackS32 := ⟨by decide, by decide⟩
theorem ModifierField.intUnpackU8 : ModifierField.Statement .intUnpackU8 := ⟨by decide, by decide⟩
theorem ModifierField.intUnpackU16 : ModifierField.Statement .intUnpackU16 := ⟨by decide, by decide⟩
theorem ModifierField.intUnpackU32 : ModifierField.Statement .intUnpackU32 := ⟨by decide, by decide⟩
theorem ModifierField.intUnpackS8 : ModifierField.Statement .intUnpackS8 := ⟨by decide, by decide⟩
theorem ModifierField.intUnpackS16 : ModifierField.Statement .intUnpackS16 := ⟨by decide, by decide⟩
theorem ModifierField.intUnpackS32 : ModifierField.Statement .intUnpackS32 := ⟨by decide, by decide⟩
theorem ModifierField.strTrim : ModifierField.Statement .strTrim := ⟨by decide, by decide⟩
theorem ModifierField.timeJ2u : ModifierField.Statement .timeJ2u := ⟨by decide, by decide⟩
theorem ModifierField.timeU2j : ModifierField.Statement .timeU2j := ⟨by decide, by decide⟩

end Sys2Proof.Laws
end

