-- ==== Sys2Proof/Tests/Slice0.lean ====
section
/-! SUPPORT. Tests. Expected values come from spec/95_test_vectors.md (the vector's id stands at each test) or are worked out by hand
from the rule named there. The witnesses at the end meet the hypotheses of the statements they are named after. -/

set_option maxRecDepth 20000

namespace Sys2Proof.Machine.Tests

/-- The block after reset under the reference configuration. -/
def rc : State := State.launch referenceConfig

/-- The block with another layout of the reply. -/
def rcInnerFirst : State := State.launch { referenceConfig with rxLayout := .innerThenLen }

/-- The block without the strict length check. -/
def rcLoose : State := State.launch { referenceConfig with rxStrictLength := false }

/-- The response to one request. -/
def ask (s : State) (cw : CommandWord) (a b : Operand) (in0 : List Byte) : Option Response :=
  match s.serve ⟨cw, a, b, in0⟩ with
  | .next t => t.response
  | _ => none

/-- The accumulators after one request. -/
def accsAfter (s : State) (cw : CommandWord) (a : Operand) (in0 : List Byte) : Option (BitVec 8 × BitVec 16 × BitVec 32) :=
  match s.serve ⟨cw, a, 0, in0⟩ with
  | .next t => some t.accs
  | _ => none

/-- An operation that completes. -/
def ok (r0 : Scalar) (r1 : Scalar := 0) (out : List Byte := []) : Option Response := some ⟨.ok, r0, r1, out⟩

/-- An operation that raises a status. -/
def bad (x : Status) : Option Response := some ⟨x, 0, 0, []⟩

/-- The reply of vector VD1. -/
def vd1 : List Byte := [0xAA, 0x55, 0x56, 0x04, 0x10, 0x76, 0xC2, 0x0F]

/-- The command frame of vector VX2. -/
def vx2 : List Byte := [0xC9, 0x36, 0xB8, 0x47, 0x56, 0x10, 0x03, 0x01, 0x02, 0x03, 0x7F, 0x47]

/-- The ASCII codes of "123456789". -/
def digits : List Byte := [0x31, 0x32, 0x33, 0x34, 0x35, 0x36, 0x37, 0x38, 0x39]

/-! ### Well-formedness: what is accepted, and one ill-formed term for each check -/

theorem referenceConfig_wellFormed : referenceConfig.WellFormed := by
  refine ⟨by decide, by decide, fun n => ?_, by decide⟩
  simp only [Config.replyLenOf, Config.arrangementOf, referenceConfig, tableAt_byteTable]
  split <;> simp [Config.legacyMagic]

theorem test_wf_refuses_empty_magic : ¬ LegacyMagicOk [] := by decide

theorem test_wf_refuses_nine_byte_magic : ¬ LegacyMagicOk [1, 2, 3, 4, 5, 6, 7, 8, 9] := by decide

theorem test_wf_refuses_empty_magic_a : ¬ { referenceConfig with legacyRxMagicA := [] }.WellFormed :=
  fun h => absurd h.1 (by decide)

theorem test_wf_refuses_empty_magic_b : ¬ { referenceConfig with legacyRxMagicB := [] }.WellFormed :=
  fun h => absurd h.2.1 (by decide)

theorem test_wf_refuses_reply_length_zero : ¬ { referenceConfig with legacyReplyLen := byteTable fun _ => 0 }.WellFormed := by
  intro h
  have := (h.2.2.1 0).1
  simp [Config.replyLenOf] at this

theorem test_wf_refuses_reply_length_65536 :
    ¬ { referenceConfig with legacyReplyLen := byteTable fun _ => 65536 }.WellFormed := by
  intro h
  have := (h.2.2.1 0).2.1
  simp [Config.replyLenOf] at this

theorem test_wf_refuses_reply_shorter_than_magic :
    ¬ { referenceConfig with legacyReplyLen := byteTable fun _ => 1 }.WellFormed := by
  intro h
  have := (h.2.2.1 0).2.2
  simp [Config.replyLenOf, Config.arrangementOf, Config.legacyMagic, referenceConfig] at this

theorem test_wf_refuses_small_buffer : ¬ { referenceConfig with maxBuf := 32776 }.WellFormed :=
  fun h => absurd h.2.2.2 (by decide)

theorem test_wf_refuses_long_request : ¬ Request.WellFormed { referenceConfig with maxBuf := 3 } ⟨0, 0, 0, [1, 2, 3, 4]⟩ := by
  decide

/-! ### The command word (the words of every operation stand in Decode.lean) -/

theorem test_reserved_opcode : decode 0x1700 = .error .reservedOpcode := by decide
theorem test_reserved_opcode_zero : decode 0x0000 = .error .reservedOpcode := by decide
theorem test_reserved_width_code : decode 0x7003 = .error .reservedModifier := by decide
theorem test_reserved_modifier_bit : decode 0x7008 = .error .reservedModifier := by decide
theorem test_plain_modifier : decode 0x2101 = .error .reservedModifier := by decide
theorem test_table_word : decodeTableWord 16 0x7105 = some .intPackS16 := by decide
theorem test_fetch : step (rc.withFetchWord 16 0x3000) = exec .crc32Clr (rc.present ⟨0x3000, 0, 0, []⟩ []) := rfl

/-! ### CRC engines -/

/-- VA1 -/
theorem test_crc8_clr : accsAfter { rc with acc8 := 0x5A, acc16 := 0x1234 } 0x1000 0 [] = some (0x00, 0x1234, 0) := by decide
/-- VA2 -/
theorem test_crc8_ld : ask rc 0x1100 0x1FF 0 [] = ok 0xFF ∧ accsAfter rc 0x1100 0x1FF [] = some (0xFF, 0, 0) := by decide
/-- VA3 -/
theorem test_crc8_upd : accsAfter { rc with acc8 := 0x12 } 0x1200 0x34 [] = some (0xF2, 0, 0) := by decide
/-- VA4 -/
theorem test_crc8_upd_zero : ask { rc with acc8 := 0xFF } 0x1200 0 0 [] = ok 0xF3 := by decide
/-- VA7 -/
theorem test_crc8_blk : ask { rc with acc8 := 0xFF } 0x1300 0 0 digits = ok 0xFB := by decide
/-- VA9 -/
theorem test_crc8_blk_empty : accsAfter { rc with acc8 := 0x37 } 0x1300 0 [] = some (0x37, 0, 0) := by decide
/-- VA10, and R114 with a final exclusive-or -/
theorem test_crc8_rd : ask { rc with acc8 := 0xF4 } 0x1400 0 0 [] = ok 0xF4 ∧
    ask (State.launch { referenceConfig with crc8 := ⟨7, 0x0F, 0xFF⟩ }) 0x1400 0 0 [] = ok 0xF0 := by decide
/-- 2.2 -/
theorem test_crc8_calc : ask { rc with acc8 := 0x11 } 0x1500 0 0 digits = ok 0xF4 ∧
    accsAfter { rc with acc8 := 0x11 } 0x1500 0 digits = some (0x11, 0, 0) := by decide
/-- 2.1 -/
theorem test_crc8_tbl : ask rc 0x1600 0x80 0 [] = ok 0x89 ∧ ask rc 0x1600 0xFF 0 [] = ok 0xF3 := by decide
theorem test_crc8_tbl_range : ask rc 0x1600 0x100 0 [] = bad .operandRange := by decide
/-- VA11 -/
theorem test_crc16_clr : accsAfter { rc with acc16 := 0x5A5A, acc8 := 1 } 0x2000 0 [] = some (1, 0, 0) := by decide
/-- VA12 -/
theorem test_crc16_ld : ask rc 0x2100 0x1FFFF 0 [] = ok 0xFFFF ∧ accsAfter rc 0x2100 0x1FFFF [] = some (0, 0xFFFF, 0) := by decide
/-- VA13 -/
theorem test_crc16_upd : accsAfter { rc with acc16 := 0x1234 } 0x2200 0x56 [] = some (0, 0x3C40, 0) := by decide
/-- VA14 -/
theorem test_crc16_upd_zero : ask { rc with acc16 := 0xFFFF } 0x2200 0 0 [] = ok 0xE1F0 := by decide
/-- VA15 -/
theorem test_crc16_blk : accsAfter { rc with acc16 := 0xFFFF } 0x2300 0 digits = some (0, 0x29B1, 0) := by decide
/-- VA17 -/
theorem test_crc16_rd : ask { rc with acc16 := 0x31C3 } 0x2400 0 0 [] = ok 0x31C3 := by decide
/-- 2.2, the check value of R103 -/
theorem test_crc16_calc : ask rc 0x2500 0 0 digits = ok 0x31C3 := by decide
/-- P1, step 6 -/
theorem test_crc16_calc_residue : ask { rc with acc16 := 0x7F47 } 0x2500 0 0 vx2 = ok 0 := by decide
/-- R101 -/
theorem test_crc16_tbl : ask rc 0x2600 0x10 0 [] = ok 0x1231 ∧ ask rc 0x2600 0xFF 0 [] = ok 0x1EF0 := by decide
theorem test_crc16_tbl_range : ask rc 0x2600 0xFFFFFFFF 0 [] = bad .operandRange := by decide
/-- VA18 -/
theorem test_crc32_clr : accsAfter { rc with acc32 := 0x5A, acc16 := 3 } 0x3000 0 [] = some (0, 3, 0) := by decide
/-- VA19 -/
theorem test_crc32_ld : ask rc 0x3100 0xFFFFFFFF 0 [] = ok 0xFFFFFFFF := by decide
/-- VA20 -/
theorem test_crc32_upd : accsAfter { rc with acc32 := 0x12345678 } 0x3200 0x9A [] = some (0, 0, 0x7B527556) := by decide
/-- VA21 -/
theorem test_crc32_upd_zero : ask { rc with acc32 := 0xFFFFFFFF } 0x3200 0 0 [] = ok 0x4E08BFB4 := by decide
/-- VA22 -/
theorem test_crc32_blk : accsAfter { rc with acc32 := 0xFFFFFFFF } 0x3300 0 digits = some (0, 0, 0x0376E6E7) := by decide
/-- VA24 -/
theorem test_crc32_rd : ask { rc with acc32 := 0x89A1897F } 0x3400 0 0 [] = ok 0x89A1897F := by decide
/-- 2.2 -/
theorem test_crc32_calc : ask rc 0x3500 0 0 digits = ok 0x89A1897F := by decide
/-- 2.1 -/
theorem test_crc32_tbl : ask rc 0x3600 0x41 0 [] = ok 0x30476DC0 ∧ ask rc 0x3600 0x80 0 [] = ok 0x690CE0EE := by decide
/-- VA34 -/
theorem test_crc32_tbl_range : ask rc 0x3600 256 0 [] = bad .operandRange := by decide

/-! ### Statuses and reset -/

/-- VA30 -/
theorem test_illegal_modifier : ask { rc with acc16 := 0x1234 } 0x2101 0 0 [] = bad .illegalOp ∧
    accsAfter { rc with acc16 := 0x1234 } 0x2101 0 [] = some (0, 0x1234, 0) := by decide
/-- VA31: `ILLEGAL_OP` before the operation's own check -/
theorem test_illegal_first : ask rc 0x1680 0x100 0 [] = bad .illegalOp := by decide
/-- VA33: the buffer limit, of an operation that does not read `IN0` -/
theorem test_buffer_limit : ∀ x : List Byte, x.length = 65537 → ask rc 0x1000 0 0 x = bad .operandRange := by
  intro x h
  have hm : (rc.present ⟨0x1000, 0, 0, x⟩ []).cfg.maxBuf < (rc.present ⟨0x1000, 0, 0, x⟩ []).opIn.length := by
    change 65536 < x.length
    omega
  have hs : exec .crc8Clr (rc.present ⟨0x1000, 0, 0, x⟩ []) = .next ((rc.present ⟨0x1000, 0, 0, x⟩ []).raise .operandRange) := by
    simp only [exec, execCrc8Clr, State.checked_of_tooLong hm]
  have h0 : rc.serve ⟨0x1000, 0, 0, x⟩ = exec .crc8Clr (rc.present ⟨0x1000, 0, 0, x⟩ []) := by
    simp only [State.serve, step, State.withHost, decode_crc8Clr]
    rfl
  simp only [ask, h0, hs]
  rfl
/-- R230 -/
theorem test_reset : step { rc with acc8 := 1, acc16 := 2, acc32 := 3, host := [.reset] } = .next rc := rfl

/-! ### Length field -/

/-- VN2, VN3 -/
theorem test_len_enc : ask rc 0x4000 127 0 [] = ok 1 0 [0x7F] ∧ ask rc 0x4000 128 0 [] = ok 2 0 [0x80, 0x80] := by decide
/-- VN7, VN8 -/
theorem test_len_enc_top : ask rc 0x4000 32767 0 [] = ok 2 0 [0xFF, 0xFF] ∧ ask rc 0x4000 32768 0 [] = bad .operandRange := by decide
/-- VN14, VN13 -/
theorem test_len_dec : ask rc 0x4100 0 0 [0x81, 0x2C, 0x99] = ok 300 2 ∧ ask rc 0x4100 0 0 [0x7F, 0x99] = ok 127 1 := by decide
/-- VN10, VN18 -/
theorem test_len_dec_short : ask rc 0x4100 0 0 [] = bad .invalidShort ∧ ask rc 0x4100 0 0 [0xFF] = bad .invalidShort := by decide

/-! ### Frames -/

/-- VX2 -/
theorem test_frm_encx : ask rc 0x5000 0x1056 0xFFFF [0x01, 0x02, 0x03] = ok 12 0xFFFF vx2 := by decide
/-- VX5: the unused operand bits are dropped -/
theorem test_frm_encx_high_bits : ask rc 0x5000 0xFFFF00FF 0x12340100 [0xFF] =
    ok 10 0x0100 [0xC9, 0x36, 0xB8, 0x47, 0xFF, 0x00, 0x01, 0xFF, 0x4C, 0xC0] := by decide
/-- W5 and VX3: the sentinel, the greatest concrete length, and the unused bits of `B` -/
theorem test_expected_reply : (ask rc 0x5000 0x1056 0xFFFF [0x01, 0x02, 0x03]).map Response.expected = some .unknown ∧
    (ask rc 0x5000 0x1056 0xFFFE []).map Response.expected = some (.concrete 65534) ∧
    (ask rc 0x5000 0x1056 0xFFFF000A [0x55]).map Response.expected = some (.concrete 10) := by decide
/-- VL2 -/
theorem test_frm_encl : ask rc 0x5100 0x123 7 [0x01] = ok 5 6 [0xC9, 0x36, 0xB8, 0x47, 0x23] := by decide
/-- VD2, VD5 -/
theorem test_frm_chkx : ask rc 0x6000 0 0 [0xAA, 0x55, 0x56, 0x06, 0x10, 0x76, 0x01, 0x02, 0xD6, 0x29] =
      ok 6 0x011056 [0x76, 0x01, 0x02] ∧
    ask rc 0x6000 0 0 [0xAA, 0x55, 0x56, 0x80, 0x06, 0x10, 0x76, 0x01, 0x02, 0x44, 0x67] = ok 6 0x021056 [0x76, 0x01, 0x02] := by
  decide
/-- VD30, VD31: the other layout -/
theorem test_frm_chkx_inner_first : ask rcInnerFirst 0x6000 0 0 [0xAA, 0x55, 0x56, 0x10, 0x04, 0x76, 0x92, 0x1B] =
      ok 4 0x011056 [0x76] ∧
    ask rcInnerFirst 0x6000 0 0 [0xAA, 0x55, 0x56, 0x10, 0x80, 0x04, 0x76, 0x2F, 0x0B] = ok 4 0x021056 [0x76] := by decide
/-- VD43, VD46 -/
theorem test_frm_rxlen : ask rc 0x6100 0 0 [0xAA, 0x55, 0x56, 0x06, 0x10] = ok 10 1 ∧
    ask rc 0x6100 0 0 [0xAA, 0x55, 0x56, 0x80, 0xCC] = ok 209 2 := by decide
/-- VD42, VD52, VD53 -/
theorem test_frm_rxlen_need_more : ask rc 0x6100 0 0 [0xAA, 0x55, 0x56, 0x06] = bad .needMore ∧
    ask rcInnerFirst 0x6100 0 0 [0xAA, 0x55, 0x56, 0x10, 0x80] = bad .needMore ∧
    ask rcInnerFirst 0x6100 0 0 [0xAA, 0x55, 0x56, 0x10, 0x80, 0x04] = ok 9 2 := by decide
/-- VD61, VD60 -/
theorem test_frm_chkl : ask rc 0x6200 0x23 0 [0x55, 0xAA, 0x01, 0x02, 0x03, 0x04] = ok 1 6 [0x01, 0x02, 0x03, 0x04] ∧
    ask rc 0x6200 0x22 0 [0xAA, 0x55, 0x01, 0x02, 0x03, 0x04] = ok 0 6 [0x01, 0x02, 0x03, 0x04] := by decide
/-- VD62, VD63, VD64, VD65 -/
theorem test_frm_chkl_errors : ask rc 0x6200 0x23 0 [0xAA, 0x55, 0x01, 0x02, 0x03, 0x04] = bad .invalidMagic ∧
    ask rc 0x6200 0x22 0 [0xAA] = bad .invalidShort ∧ ask rc 0x6200 0x23 0 [0x55, 0xAA, 0x09] = bad .invalidShort ∧
    ask rc 0x6200 0x22 0 [0xAA, 0x55, 0x01, 0x02, 0x03, 0x04, 0x05] = bad .invalidLength := by decide

/-! ### Field codec -/

/-- VF1, VF2 -/
theorem test_wrap_u8 : ask rc 0x7000 0x1FF 0 [] = ok 0xFF ∧ ask rc 0x7000 256 0 [] = ok 0 := by decide
/-- VF6, VF8 -/
theorem test_wrap_u16 : ask rc 0x7001 0x18000 0 [] = ok 0x8000 ∧ ask rc 0x7001 0x12345678 0 [] = ok 0x5678 := by decide
/-- VF10 -/
theorem test_wrap_u32 : ask rc 0x7002 0xFFFFFFFF 0 [] = ok 0xFFFFFFFF := by decide
/-- VF4, VF5 -/
theorem test_wrap_s8 : ask rc 0x7004 0x80 0 [] = ok 0xFFFFFFFFFFFFFF80 ∧ ask rc 0x7004 0x7F 0 [] = ok 0x7F := by decide
/-- VF7 -/
theorem test_wrap_s16 : ask rc 0x7005 0x18000 0 [] = ok 0xFFFFFFFFFFFF8000 := by decide
/-- VF9 -/
theorem test_wrap_s32 : ask rc 0x7006 0xFFFFFFFF 0 [] = ok 0xFFFFFFFFFFFFFFFF := by decide
/-- VF13 -/
theorem test_pack_u8 : ask rc 0x7100 0x1FF 0 [] = ok 1 0 [0xFF] := by decide
/-- VF14 -/
theorem test_pack_u16 : ask rc 0x7101 0x12345678 0 [] = ok 2 0 [0x78, 0x56] := by decide
/-- VF16 -/
theorem test_pack_u32 : ask rc 0x7102 0x12345678 0 [] = ok 4 0 [0x78, 0x56, 0x34, 0x12] := by decide
/-- R182: the sign does not change the bytes -/
theorem test_pack_s8 : ask rc 0x7104 0x1FE 0 [] = ok 1 0 [0xFE] := by decide
/-- VF15 -/
theorem test_pack_s16 : ask rc 0x7105 0xFFFF8000 0 [] = ok 2 0 [0x00, 0x80] := by decide
/-- R182 -/
theorem test_pack_s32 : ask rc 0x7106 0x89ABCDEF 0 [] = ok 4 0 [0xEF, 0xCD, 0xAB, 0x89] := by decide
/-- VF24, VF26 -/
theorem test_unpack_u8 : ask rc 0x7200 0 0 [0xFF] = ok 0xFF ∧ ask rc 0x7200 0 0 [] = bad .invalidShort := by decide
/-- P2 step 5, VF25 -/
theorem test_unpack_u16 : ask rc 0x7201 0 0 [0x01, 0x02] = ok 0x0201 ∧ ask rc 0x7201 0 0 [0x10] = bad .invalidShort := by decide
/-- VF19, and R183 -/
theorem test_unpack_u32 : ask rc 0x7202 0 0 [0x78, 0x56, 0x34, 0x12] = ok 0x12345678 ∧
    ask rc 0x7202 0 0 [0x78, 0x56, 0x34] = bad .invalidShort := by decide
/-- VF23 -/
theorem test_unpack_s8 : ask rc 0x7204 0 0 [0xFF] = ok 0xFFFFFFFFFFFFFFFF := by decide
/-- VF22 -/
theorem test_unpack_s16 : ask rc 0x7205 0 0 [0x00, 0x80, 0x55] = ok 0xFFFFFFFFFFFF8000 := by decide
/-- VF20, VF21 -/
theorem test_unpack_s32 : ask rc 0x7206 0 0 [0xFF, 0xFF, 0xFF, 0x7F] = ok 0x7FFFFFFF ∧
    ask rc 0x7206 0 0 [0x00, 0x00, 0x00, 0x80] = ok 0xFFFFFFFF80000000 := by decide
/-- VF30, VF31, VF29 -/
theorem test_str_trim : ask rc 0x7300 0 0 [0x41, 0x00, 0x42] = ok 1 0 [0x41] ∧
    ask rc 0x7300 0 0 [0x61, 0x62, 0x63] = ok 3 0 [0x61, 0x62, 0x63] ∧ ask rc 0x7300 0 0 [0x00, 0x41] = ok 0 := by decide
/-- VF34, VF33 -/
theorem test_time_j2u : ask rc 0x7400 0xFFFFFFFF 0 [] = ok 5241652095 ∧ ask rc 0x7400 86400 0 [] = ok 946771200 := by decide
/-- VF35, VF37, VF38 -/
theorem test_time_u2j : ask rc 0x7500 946684800 0 [] = ok 0 ∧ ask rc 0x7500 946684799 0 [] = bad .operandRange ∧
    ask rc 0x7500 0xFFFFFFFF 0 [] = ok 3348282495 := by decide

/-! ### The assembler (R76, R77) -/

/-- VX2 as its line is written -/
theorem test_asm_operands : assembleLine "frm.encx a=0x1056, b=0xFFFF, in0=[01 02 03] ; VX2".toList =
    some [⟨0x5000, 0x1056, 0xFFFF, [0x01, 0x02, 0x03]⟩] := by decide
theorem test_asm_width_suffix : assembleLine "int.wrap.s8 a=128".toList = some [⟨0x7004, 0x80, 0, []⟩] := by decide
theorem test_asm_named_fields : assembleLine "frm.cmd 0x56, 0x10, 0xFFFF, in0=[01 02 03]".toList =
    some [⟨0x5000, 0x1056, 0xFFFF, [0x01, 0x02, 0x03]⟩] := by decide
theorem test_asm_expansions : assemble ["nop", "crc16.cont a=5, in0=[41]"] =
    some [⟨0x1400, 0, 0, []⟩, ⟨0x2100, 5, 0, []⟩, ⟨0x2300, 0, 0, [0x41]⟩] := by decide
theorem test_asm_unknown_name : assembleLine "crc16.foo".toList = none := by decide

/-! ### Witnesses: a state and operands that meet the hypotheses of each statement, with one for each clause at its bounds -/

/-- `rc` with a request on the port, an operation about to run. -/
def serving (a b : Operand) (in0 : List Byte) : State := { rc with request := ⟨0, a, b, in0⟩ }

/-- `rc` with one request presented. -/
def facing (cw : CommandWord) (a b : Operand) (in0 : List Byte) : State := { rc with host := [.request ⟨cw, a, b, in0⟩] }

/-- A payload of `n` zero bytes. -/
def zeros (n : Nat) : List Byte := List.replicate n 0

theorem serving_wellFormed (a b : Operand) (in0 : List Byte) (h : in0.length ≤ 65536) :
    (serving a b in0).request.WellFormed (serving a b in0).cfg := h

theorem serving_in0 (a b : Operand) (in0 : List Byte) : (serving a b in0).request.in0 = in0 := rfl

theorem zeros_length (n : Nat) : (zeros n).length = n := List.length_replicate

/-- A reserved code, a width code 3, a modifier where none is allowed, and a legal word. -/
theorem witness_IllegalRequestsExactly :
    ((facing 0x1700 0 0 []).host = [.request ⟨0x1700, 0, 0, []⟩] ∧ opcOf 0x1700 = 0x17) ∧
    ((facing 0x7003 5 0 []).host = [.request ⟨0x7003, 5, 0, []⟩] ∧ opcOf 0x7003 = 0x70 ∧
      (0x7003 : CommandWord).extractLsb' 0 2 = 3) ∧
    ((facing 0x2101 0 0 []).host = [.request ⟨0x2101, 0, 0, []⟩] ∧ opcOf 0x2101 = 0x21 ∧ modOf 0x2101 ≠ 0) ∧
    ((facing 0x7206 0 0 []).host = [.request ⟨0x7206, 0, 0, []⟩] ∧ opcOf 0x7206 = 0x72 ∧
      (0x7206 : CommandWord).extractLsb' 0 2 ≠ 3 ∧ (0x7206 : CommandWord).extractLsb' 3 5 = 0) := by decide

theorem witness_StepRunsDecodedRequest :
    (facing 0x6100 0 0 vd1).host = [.request ⟨0x6100, 0, 0, vd1⟩] ∧ decode 0x6100 = .ok .frmRxlen := by decide

theorem witness_IdleBlockHoldsItsState : ({ rc with acc8 := 7 } : State).host = [] := by decide

theorem witness_ResetEventLoadsInitialValues :
    ({ rc with acc8 := 7, host := [.reset, .request ⟨0x1400, 0, 0, []⟩] } : State).host =
      .reset :: [.request ⟨0x1400, 0, 0, []⟩] := by decide

theorem witness_ResetEqualsThreeClears :
    [Instr.crc32Clr, .crc8Clr, .crc16Clr].Perm [.crc8Clr, .crc16Clr, .crc32Clr] := by decide

/-- `MAX_BUF` at its least value and just below it. -/
theorem witness_OnlyWellFormedConfigurationsLaunch :
    { referenceConfig with maxBuf := 32777 }.WellFormed ∧ ¬ { referenceConfig with maxBuf := 32776 }.WellFormed :=
  ⟨⟨referenceConfig_wellFormed.1, referenceConfig_wellFormed.2.1, referenceConfig_wellFormed.2.2.1, by decide⟩,
    test_wf_refuses_small_buffer⟩

theorem rc_inv (h : List HostMove) : ({ rc with host := h } : State).Inv :=
  ⟨referenceConfig_wellFormed, fun _ h => by cases h⟩

theorem witness_StepKeepsInvariant :
    (facing 0x1100 0x1FF 0 []).Inv ∧ step (facing 0x1100 0x1FF 0 []) =
      .next { rc with request := ⟨0x1100, 0x1FF, 0, []⟩, acc8 := 0xFF, response := ok 0xFF } := ⟨rc_inv _, rfl⟩

theorem witness_EveryStepAnswers :
    (facing 0x1100 0 0 []).host = .request ⟨0x1100, 0, 0, []⟩ :: (facing 0x1100 0 0 []).host.tail := by decide

theorem witness_FailedRequestsLeaveNoTrace :
    (facing 0x4000 32768 0 []).host = [.request ⟨0x4000, 32768, 0, []⟩] ∧
    step (facing 0x4000 32768 0 []) = .next { rc with request := ⟨0x4000, 32768, 0, []⟩, response := bad .operandRange } ∧
    Status.operandRange ≠ .ok := ⟨rfl, rfl, by decide⟩

theorem witness_BufferLimitComesFirst :
    (facing 0x1000 0 0 (zeros 65537)).host = [.request ⟨0x1000, 0, 0, zeros 65537⟩] ∧ decode 0x1000 = .ok .crc8Clr ∧
    (facing 0x1700 0 0 (zeros 65537)).host = [.request ⟨0x1700, 0, 0, zeros 65537⟩] ∧ decode 0x1700 = .error .reservedOpcode ∧
    (facing 0x1000 0 0 (zeros 65537)).cfg.maxBuf < (zeros 65537).length := by
  refine ⟨rfl, by decide, rfl, by decide, ?_⟩
  rw [zeros_length]
  decide

/-- One for each status an operation can end with. -/
theorem witness_StatusesComeOnlyFromTheirOperations :
    (serving 0 0 vd1).request.WellFormed (serving 0 0 vd1).cfg ∧
    exec .frmRxlen (serving 0 0 []) = .next { serving 0 0 [] with response := bad .needMore } ∧
    exec .crc8Tbl (serving 256 0 []) = .next { serving 256 0 [] with response := bad .operandRange } ∧
    exec .lenDec (serving 0 0 []) = .next { serving 0 0 [] with response := bad .invalidShort } ∧
    exec .frmChkl (serving 0x23 0 vd1) = .next { serving 0x23 0 vd1 with response := bad .invalidMagic } ∧
    exec .frmChkl (serving 0x22 0 vd1) = .next { serving 0x22 0 vd1 with response := bad .invalidLength } :=
  ⟨by decide, rfl, rfl, rfl, rfl, rfl⟩

theorem witness_invalid_cmd_and_crc :
    ask rc 0x6000 0 0 [0xAA, 0x55, 0x57, 0x04, 0x10, 0x76, 0xB4, 0xBB] = bad .invalidCmd ∧
    ask rc 0x6000 0 0 [0xAA, 0x55, 0x56, 0x04, 0x10, 0x76, 0x00, 0x00] = bad .invalidCrc := by decide

theorem witness_AccumulatorsAreWrittenOnlyByTheirEngine :
    exec .crc16Ld (serving 5 0 []) = .next { serving 5 0 [] with acc16 := 5, response := ok 5 } ∧
    Instr.crc16Ld ∉ [Instr.crc8Clr, .crc8Ld, .crc8Upd, .crc8Blk] ∧
    Instr.crc16Ld ∉ [Instr.crc32Clr, .crc32Ld, .crc32Upd, .crc32Blk] ∧
    Instr.crc8Clr ∉ [Instr.crc16Clr, .crc16Ld, .crc16Upd, .crc16Blk] := ⟨rfl, by decide, by decide, by decide⟩

theorem witness_AccumulatorsAreReadOnlyByTheirEngine :
    Instr.crc16Rd ∉ [Instr.crc8Upd, .crc8Blk, .crc8Rd] ∧ Instr.frmChkx ∉ [Instr.crc16Upd, .crc16Blk, .crc16Rd] ∧
    Instr.crc8Blk ∉ [Instr.crc32Upd, .crc32Blk, .crc32Rd] ∧ Instr.crc8Ld ∉ [Instr.crc8Upd, .crc8Blk, .crc8Rd] ∧
    Instr.crc8Ld ∈ [Instr.crc8Clr, .crc8Ld] ∧ (serving 0x1FF 0 []).request.WellFormed (serving 0x1FF 0 []).cfg := by decide

theorem witness_Acc16SurvivesOtherRequests :
    ∀ r ∈ [(⟨0x5000, 0x1056, 0xFFFF, [1]⟩ : Request), ⟨0x6000, 0, 0, vd1⟩, ⟨0x2101, 0, 0, []⟩, ⟨0x2500, 0, 0, vd1⟩],
      ∀ i ∈ [Instr.crc16Clr, .crc16Ld, .crc16Upd, .crc16Blk], decode r.cw ≠ .ok i := by decide

theorem witness_ClearLoadsInitialValue : (serving 0 0 []).request.WellFormed (serving 0 0 []).cfg := by decide
theorem witness_LoadTakesLowBits : (serving 0x1FFFF 0 []).request.WellFormed (serving 0x1FFFF 0 []).cfg := by decide
theorem witness_UpdateIsTheBitwiseLoop : (serving 0x134 0 [9]).request.WellFormed (serving 0x134 0 [9]).cfg := by decide
theorem witness_UpdateIsOneTableStep : (serving 0x56 7 []).request.WellFormed (serving 0x56 7 []).cfg := by decide
theorem witness_BlockFeedsEveryByte : (serving 0 0 (zeros 65536)).request.WellFormed (serving 0 0 (zeros 65536)).cfg :=
  serving_wellFormed _ _ _ (zeros_length _).le
theorem witness_ReadGivesFinishedCrc : (serving 1 0 [7]).request.WellFormed (serving 1 0 [7]).cfg := by decide
theorem witness_CalcIsOneShot : (serving 0 0 digits).request.WellFormed (serving 0 0 digits).cfg := by decide
theorem witness_TableReadChecksIndex :
    ((serving 255 0 []).request.WellFormed (serving 255 0 []).cfg ∧ (serving 255 0 []).request.a.toNat ≤ 255) ∧
    ((serving 256 0 []).request.WellFormed (serving 256 0 []).cfg ∧ 255 < (serving 256 0 []).request.a.toNat) := by decide

theorem witness_TableStepEqualsBitwiseLoop : 8 ∈ [8, 16, 32] ∧ 16 ∈ [8, 16, 32] ∧ 32 ∈ [8, 16, 32] := by decide
theorem witness_TableEntriesZeroAndOne : 8 ∈ [8, 16, 32] ∧ 16 ∈ [8, 16, 32] ∧ 32 ∈ [8, 16, 32] := by decide

theorem witness_BlocksConcatenate : (digits ++ zeros 65527).length ≤ rc.cfg.maxBuf := by
  rw [List.length_append, zeros_length]
  decide

theorem witness_BlockEqualsUpdates : (zeros 65536).length ≤ rc.cfg.maxBuf := (zeros_length _).le
theorem witness_StreamEqualsCalc : digits.length ≤ rc.cfg.maxBuf := by decide

/-- VA13 saved, and loaded again over another value. -/
theorem witness_SavedAccumulatorIsRestored :
    (serving 0x56 0 []).request.WellFormed (serving 0x56 0 []).cfg ∧
    (serving 0x3C40 0 []).request.WellFormed (serving 0x3C40 0 []).cfg ∧
    ask { rc with acc16 := 0x1234 } 0x2200 0x56 0 [] = ok 0x3C40 ∧
    (serving 0x3C40 0 []).request.a = (0x3C40 : Scalar).setWidth 32 := by decide

theorem witness_CorrectTrailerMeansZeroResidue :
    deviceCrc16.xorOut = 0 ∧ referenceConfig.crc16 = ⟨0x1021, 0, 0⟩ ∧ 2 ≤ ([0, 0] : List Byte).length ∧
    hasCorrectTrailer referenceConfig vd1 = true := by decide

/-- An error at either end of its range of places, in the three last bytes of VD1, and one in a frame of two bytes. -/
theorem witness_BurstErrorsBreakTheTrailer :
    referenceConfig.crc16 = ⟨0x1021, 0, 0⟩ ∧ (0x8001 : BitVec 16) ≠ 0 ∧ 0 ≤ 8 ∧ 8 ≤ 8 ∧
    hasCorrectTrailer referenceConfig ([0xAA, 0x55, 0x56, 0x04, 0x10] ++ [0x76, 0xC2, 0x0F] ++ []) = true ∧
    hasCorrectTrailer referenceConfig [0, 0] = true := by decide

/-- Both ends of each of the three ranges. -/
theorem witness_LengthEncodeResult :
    (serving 0 0 []).request.WellFormed rc.cfg ∧ (0 : Operand).toNat ≤ 127 ∧ (127 : Operand).toNat ≤ 127 ∧
    (128 ≤ (128 : Operand).toNat ∧ (128 : Operand).toNat ≤ 32767) ∧ (128 ≤ (32767 : Operand).toNat ∧ (32767 : Operand).toNat ≤ 32767) ∧
    32768 ≤ (32768 : Operand).toNat ∧ 32768 ≤ (0xFFFFFFFF : Operand).toNat := by decide

/-- One field for each clause. -/
theorem witness_LengthDecodeResult :
    (serving 0 0 [0xFF, 0xFF]).request.WellFormed (serving 0 0 [0xFF, 0xFF]).cfg ∧
    (serving 0 0 []).request.in0 = [] ∧ (serving 0 0 [0x7F, 0x99]).request.in0 = (0#1 ++ 0x7F#7) :: [0x99] ∧
    (serving 0 0 [0x80]).request.in0 = [1#1 ++ 0#7] ∧ (serving 0 0 [0xFF, 0xFF]).request.in0 = (1#1 ++ 0x7F#7) :: 0xFF :: [] := by
  decide

theorem witness_LengthFieldInvertible : (0 : Nat) ≤ 32767 ∧ (127 : Nat) ≤ 32767 ∧ (128 : Nat) ≤ 32767 ∧ (32767 : Nat) ≤ 32767 := by
  decide

/-- The longest payload a command frame takes, and one byte more; an unknown reply length, and the nearest concrete one. -/
theorem witness_ExtendedFrameResult :
    ((serving 0x1056 10 (zeros 32767)).request.WellFormed rc.cfg ∧ (zeros 32767).length ≤ 32767) ∧
    ((serving 0x1056 10 (zeros 32768)).request.WellFormed rc.cfg ∧ 32767 < (zeros 32768).length) ∧
    (0xFFFFFFFF : Operand).extractLsb' 0 16 = 0xFFFF ∧ (0xFFFFFFFE : Operand).extractLsb' 0 16 ≠ 0xFFFF := by
  have h : ∀ n, n ≤ 65536 → (serving 0x1056 10 (zeros n)).request.WellFormed rc.cfg :=
    fun n hn => serving_wellFormed _ _ _ ((zeros_length n).trans_le hn)
  exact ⟨⟨h _ (by decide), (zeros_length _).le⟩, ⟨h _ (by decide), (zeros_length _).symm ▸ by decide⟩, by decide, by decide⟩

theorem witness_CommandFrameSizes :
    ([] : List Byte).length = 0 ∧ (zeros 32767).length = 32767 ∧ 32777 ≤ { rc with cfg.maxBuf := 32777 }.cfg.maxBuf :=
  ⟨rfl, zeros_length _, le_refl _⟩

theorem witness_CommandFrameLaws :
    (serving 0x1056 0 [1, 2, 3]).cfg.crc16.xorOut = 0 ∧ (serving 0x1056 0 [1, 2, 3]).request.WellFormed rc.cfg ∧
    (serving 0x1056 0 [1, 2, 3]).request.in0.length ≤ 32767 ∧ (serving 0xFF1056 9 [1, 2, 3]).cfg = (serving 0x1056 0 [1, 2, 3]).cfg ∧
    ask rc 0x5000 0xFF1056 9 [1, 2, 3] = ok 12 9 vx2 ∧ ask rc 0x5000 0x1056 0 [1, 2, 3] = ok 12 0 vx2 := by
  refine ⟨by decide, by decide, by decide, rfl, by decide, by decide⟩

theorem witness_ProbeFrameResult : (serving 0x122 0 []).cfg.WellFormed ∧ (serving 0x122 0 []).request.WellFormed rc.cfg :=
  ⟨referenceConfig_wellFormed, by decide⟩

/-- VD5: the long spelling of a small length, in each layout (VD31). -/
theorem witness_WellBuiltReplyIsSplit :
    (serving 0 0 [0xAA, 0x55, 0x56, 0x80, 0x06, 0x10, 0x76, 0x01, 0x02, 0x44, 0x67]).request.WellFormed rc.cfg ∧
    decLen [0x80, 0x06] = some (6, 2) ∧
    [0xAA, 0x55, 0x56, 0x80, 0x06, 0x10, 0x76, 0x01, 0x02, 0x44, 0x67] =
      (rc.cfg.rxMagic.toList ++ [rc.cfg.rxExtCmd] ++ ([0x80, 0x06] ++ [0x10]) ++ [0x76, 0x01, 0x02]) ++
        be16 (crc rc.cfg.crc16 (rc.cfg.rxMagic.toList ++ [rc.cfg.rxExtCmd] ++ ([0x80, 0x06] ++ [0x10]) ++ [0x76, 0x01, 0x02])) ∧
    6 + rc.cfg.rxEnvelopeOverhead + (2 - 1) = 11 ∧
    decLen [0x80, 0x04] = some (4, 2) ∧ 4 + rcInnerFirst.cfg.rxEnvelopeOverhead + (2 - 1) = 9 ∧
    [0xAA, 0x55, 0x56, 0x10, 0x80, 0x04, 0x76, 0x2F, 0x0B] =
      (rc.cfg.rxMagic.toList ++ [rc.cfg.rxExtCmd] ++ (0x10 :: [0x80, 0x04]) ++ [0x76]) ++
        be16 (crc rc.cfg.crc16 (rc.cfg.rxMagic.toList ++ [rc.cfg.rxExtCmd] ++ (0x10 :: [0x80, 0x04]) ++ [0x76])) := by decide

/-- One frame for each branch: VD6, VD12, VD14, VD15, VD7, VD8, VD3. -/
theorem witness_ReplyChecksRunInOrder :
    (serving 0 0 vd1).request.WellFormed rc.cfg ∧
    ask rc 0x6000 0 0 [0xAA, 0x55, 0x56, 0x06, 0x10, 0x76] = bad .invalidShort ∧
    ask rc 0x6000 0 0 [0xAA, 0x54, 0x57, 0x04, 0x10, 0x76, 0x00, 0x00] = bad .invalidMagic ∧
    ask rc 0x6000 0 0 [0xAA, 0x55, 0x56, 0x80, 0x03, 0x62, 0x21] = bad .invalidShort ∧
    ask rc 0x6000 0 0 [0xAA, 0x55, 0x56, 0x05, 0x10, 0x76, 0xF5, 0x3F] = bad .invalidLength ∧
    ask rcLoose 0x6000 0 0 [0xAA, 0x55, 0x56, 0x05, 0x10, 0x76, 0xF5, 0x3F] = ok 5 0x011056 [0x76] ∧
    ask rc 0x6000 0 0 [0xAA, 0x55, 0x56, 0x03, 0x10, 0x0E, 0xB8] = ok 3 0x011056 [] := by decide

/-- The frame R167 builds for an inner command and a body. -/
def built (inner : Byte) (body : List Byte) : List Byte :=
  let f := rc.cfg.rxMagic.toList ++ [rc.cfg.rxExtCmd] ++ encLen (body.length + 3) ++ [inner] ++ body
  f ++ be16 (crc rc.cfg.crc16 f)

/-- VD1, and the longest body. -/
theorem witness_BuiltReplyIsAccepted :
    rc.cfg.WellFormed ∧ rc.cfg.rxLayout = .lenThenInner ∧ rc.cfg.rxEnvelopeOverhead = 4 ∧
    ([0x76] : List Byte).length ≤ 32764 ∧ (serving 0 0 vd1).request.in0 = built 0x10 [0x76] ∧
    (zeros 32764).length ≤ 32764 ∧ (serving 0 0 (built 0x10 (zeros 32764))).request.in0 = built 0x10 (zeros 32764) :=
  ⟨referenceConfig_wellFormed, rfl, rfl, by decide, by decide, (zeros_length 32764).le, serving_in0 _ _ _⟩

/-- The shortest prefix, and the whole frame. -/
theorem witness_DiscoveryAgreesWithValidation :
    rc.cfg.WellFormed ∧ rc.cfg.rxLayout = .lenThenInner ∧ rc.cfg.rxEnvelopeOverhead = 4 ∧
    ([0x76] : List Byte).length ≤ 32764 ∧ 5 ≤ 5 ∧ [0xAA, 0x55, 0x56, 0x04, 0x10] = (built 0x10 [0x76]).take 5 ∧
    5 ≤ 8 ∧ vd1 = (built 0x10 [0x76]).take 8 :=
  ⟨referenceConfig_wellFormed, rfl, rfl, by decide, by decide, by decide, by decide, by decide⟩

/-- VD1 accepted; its first, third and last byte exist, and bit 7 is the last bit of a byte (VD20, VD22, VD27 flip them). -/
theorem witness_SingleBitCorruptionIsRejected :
    (serving 0 0 vd1).cfg.crc16 = ⟨0x1021, 0, 0⟩ ∧ 0 < vd1.length ∧ 2 < vd1.length ∧ 7 < vd1.length ∧ 0 < 8 ∧ 7 < 8 ∧
    exec .frmChkx (serving 0 0 vd1) = .next { serving 0 0 vd1 with response := ok 4 0x011056 [0x76] } :=
  ⟨rfl, by decide, by decide, by decide, by decide, by decide, rfl⟩

theorem witness_CommandFrameIsNoReply :
    rc.cfg.WellFormed ∧ ([1, 2, 3] : List Byte).length ≤ 32767 ∧ rc.cfg.txMagic.toList.take 2 ≠ rc.cfg.rxMagic.toList ∧
    (serving 0 0 vx2).request.in0 = commandFrame rc.cfg 0x56 0x10 [1, 2, 3] :=
  ⟨referenceConfig_wellFormed, by decide, by decide, by decide⟩

/-- VD9 and VD10: one padding byte, and three; the length check on, and off. -/
theorem witness_ZeroPaddingIsCaughtByLengthOnly :
    rc.cfg.crc16 = ⟨0x1021, 0, 0⟩ ∧ rcLoose.cfg.crc16 = ⟨0x1021, 0, 0⟩ ∧ ask rc 0x6000 0 0 vd1 = ok 4 0x011056 [0x76] ∧
    ask rcLoose 0x6000 0 0 vd1 = ok 4 0x011056 [0x76] ∧ 0 < 1 ∧ vd1.length + 3 ≤ rc.cfg.maxBuf ∧
    rc.cfg.rxStrictLength = true ∧ rcLoose.cfg.rxStrictLength = false ∧
    ask rcLoose 0x6000 0 0 (vd1 ++ [0, 0, 0]) = ok 4 0x011056 [0x76, 0xC2, 0x0F, 0x00] := by decide

/-- VD42, VD43, VD46 and VD52, VD53: too few bytes and just enough, in each layout. -/
theorem witness_ReplyLengthDiscovery :
    (serving 0 0 vd1).request.WellFormed rc.cfg ∧ ([0xAA, 0x55, 0x56, 0x06] : List Byte).length ≤ 4 ∧
    4 < ([0xAA, 0x55, 0x56, 0x80, 0xCC] : List Byte).length ∧ 3 + 2 ≤ ([0xAA, 0x55, 0x56, 0x80, 0xCC] : List Byte).length ∧
    204 + rc.cfg.rxEnvelopeOverhead + (2 - 1) < 2 ^ 64 ∧
    ([0xAA, 0x55, 0x56, 0x10, 0x80] : List Byte).length < 4 + 2 ∧ 4 + 2 ≤ ([0xAA, 0x55, 0x56, 0x10, 0x80, 0x04] : List Byte).length := by
  decide

theorem witness_LegacyReplyResult : (serving 0x22 0 vd1).cfg.WellFormed ∧ (serving 0x22 0 vd1).request.WellFormed rc.cfg :=
  ⟨referenceConfig_wellFormed, by decide⟩

theorem witness_IntWrapResult : (serving 0x18000 0 []).request.WellFormed rc.cfg := by decide
theorem witness_IntPackResult : (serving 0xFFFF8000 0 []).request.WellFormed rc.cfg := by decide

/-- A field of each width, and one byte too few for each. -/
theorem witness_IntUnpackResult :
    (serving 0 0 [0x00, 0x80, 0x55, 0x80]).request.WellFormed rc.cfg ∧
    (serving 0 0 [0xFF]).request.in0 = 0xFF :: [] ∧ (serving 0 0 [0x00, 0x80, 0x55]).request.in0 = 0x00 :: 0x80 :: [0x55] ∧
    (serving 0 0 [0x00, 0x80, 0x55, 0x80]).request.in0 = 0x00 :: 0x80 :: 0x55 :: 0x80 :: [] ∧
    (serving 0 0 []).request.in0.length < 1 ∧ (serving 0 0 [1]).request.in0.length < 2 ∧
    (serving 0 0 [1, 2, 3]).request.in0.length < 4 := by decide

theorem witness_PackThenUnpackIsWrap : ([9, 8] : List Byte).length + 4 ≤ rc.cfg.maxBuf := by decide

/-- A field with a null byte and one without. -/
theorem witness_StringIsTrimmedAtFirstNull :
    (serving 0 0 [0x41, 0x00, 0x42]).request.WellFormed rc.cfg ∧ (0 : Byte) ∉ ([0x41] : List Byte) ∧
    (serving 0 0 [0x41, 0x00, 0x42]).request.in0 = [0x41] ++ 0 :: [0x42] ∧ (serving 0 0 [0x41]).request.in0 = [0x41] ∧
    ([0x41] : List Byte).length < 2 ^ 64 := by decide

/-- The epoch and the second before it. -/
theorem witness_TimestampConversions :
    (serving 946684800 0 []).request.WellFormed rc.cfg ∧ 946684800 ≤ (serving 946684800 0 []).request.a.toNat ∧
    (serving 946684799 0 []).request.a.toNat < 946684800 := by decide

theorem witness_TimestampRoundTrip : 946684800 ≤ (946684800 : Operand).toNat ∧ 946684800 ≤ (0xFFFFFFFF : Operand).toNat := by decide

end Sys2Proof.Machine.Tests
end

/-! ### The configuration and the state after reset (spec/00_scope.md R5; 70_reset_and_hazards.md R230, R237) -/

namespace Sys2Proof.Machine

/-- A state with a new response meets the invariant as soon as that response is honest: the response before it plays no part. -/
theorem State.respond_inv {s : State} {r : Response} (hcfg : s.cfg.WellFormed) (hr : r.Honest s.cfg) : (s.respond r).Inv := by
  refine ⟨hcfg, fun r' hr' => ?_⟩
  rw [State.respond_response, Option.some.injEq] at hr'
  exact hr' ▸ hr

/-- Without a response the invariant is about the configuration alone. -/
theorem State.inv_of_no_response {s : State} (hcfg : s.cfg.WellFormed) (hnone : s.response = none) : s.Inv :=
  ⟨hcfg, by simp [hnone]⟩

theorem State.launch_launched {cfg : Config} (h : cfg.WellFormed) : (State.launch cfg).Launched := ⟨h, rfl, rfl, rfl, rfl⟩

theorem State.launch_inv {cfg : Config} (h : cfg.WellFormed) : (State.launch cfg).Inv := State.inv_of_no_response h rfl

theorem State.instantiate_of_wellFormed {cfg : Config} (h : cfg.WellFormed) :
    State.instantiate cfg = .next (State.launch cfg) := if_pos h

theorem State.instantiate_of_not_wellFormed {cfg : Config} (h : ¬ cfg.WellFormed) :
    State.instantiate cfg = .refused .illFormedConfiguration := if_neg h

@[simp] theorem deviceConfig_arrangementOf (c : Byte) : deviceConfig.arrangementOf c = Config.openLegacyArrangement c :=
  tableAt_byteTable _ c

@[simp] theorem deviceConfig_replyLenOf (c : Byte) : deviceConfig.replyLenOf c = deviceReplyLen c :=
  tableAt_byteTable _ c

@[simp] theorem deviceConfig_legacyMagic (x : Arrangement) : deviceConfig.legacyMagic x = deviceLegacyMagic x := by
  cases x <;> rfl

theorem deviceLegacyMagic_ok (x : Arrangement) : LegacyMagicOk (deviceLegacyMagic x) := by
  cases x <;> exact openMagic_length _

/-- A reply length is at least 1 because the magic it covers is never empty. -/
theorem deviceConfig_legacyLengthsOk : deviceConfig.LegacyLengthsOk := by
  intro n
  obtain ⟨hmagic, hmax⟩ := deviceReplyLen_bounds (BitVec.ofFin n)
  have hpos := (deviceLegacyMagic_ok (Config.openLegacyArrangement (BitVec.ofFin n))).1
  simp only [deviceConfig_replyLenOf, deviceConfig_arrangementOf, deviceConfig_legacyMagic]
  exact ⟨hpos.trans hmagic, hmax, hmagic⟩

theorem deviceConfig_wellFormed : deviceConfig.WellFormed :=
  ⟨deviceLegacyMagic_ok .a, deviceLegacyMagic_ok .b, deviceConfig_legacyLengthsOk, (by decide : 32777 ≤ deviceMaxBuf)⟩

/-- Settles O9: each field of the launch state of `deviceConfig` is the value R5 and R29 give. -/
theorem resetStateIsAsGiven : Obligations.ResetStateIsAsGiven := ⟨rfl, rfl, rfl, rfl, rfl, rfl, rfl⟩

/-- Settles O10, by the two branches of `State.instantiate`. -/
theorem onlyWellFormedConfigurationsLaunch : Obligations.OnlyWellFormedConfigurationsLaunch := fun cfg =>
  ⟨fun h => ⟨State.launch cfg, State.instantiate_of_wellFormed h, rfl, State.launch_launched h, State.launch_inv h⟩,
    State.instantiate_of_not_wellFormed⟩

/-- Settles O11: the OPEN parameters lie in R5's range by the way `deviceConfig` takes them. -/
theorem resetMeetsInvariant : Obligations.ResetMeetsInvariant := State.launch_inv deviceConfig_wellFormed

end Sys2Proof.Machine

/-! ### Honest responses (30_encoding.md R61; 00_scope.md R12): every response of the block keeps the interface's word

Only four operations can give a long `OUT`: FRM.ENCX, whose longest frame is what R5 asks of `MAX_BUF`, and FRM.CHKX, FRM.CHKL
and STR.TRIM, which answer a part of `IN0`. -/

namespace Sys2Proof.Machine

section Honest

variable {cfg : Config}

theorem Response.raised_honest (x : Status) : (Response.raised x).Honest cfg := ⟨Nat.zero_le _, fun _ => ⟨rfl, rfl, rfl⟩⟩

/-- A completed operation has to keep the buffer limit only. -/
theorem Response.done_honest {a b : Scalar} {o : List Byte} (h : o.length ≤ cfg.maxBuf) : (Response.done a b o).Honest cfg :=
  ⟨h, fun hne => absurd rfl hne⟩

theorem Response.done_nil_honest (a b : Scalar) : (Response.done a b).Honest cfg := Response.done_honest (Nat.zero_le _)

theorem crcResult_honest {w : Nat} (v : BitVec w) : (crcResult v).Honest cfg := Response.done_nil_honest _ _

theorem tableRead_honest {w : Nat} (p : CrcParams w) (a : Operand) : (tableRead p a).Honest cfg := by
  unfold tableRead
  split
  · exact Response.raised_honest _
  · exact crcResult_honest _

/-! The length field and the frames -/

theorem encLen_length_le (n : Nat) : (encLen n).length ≤ 2 := by
  rw [encLen_length]
  split <;> omega

theorem lengthEncoded_honest (hbuf : 32777 ≤ cfg.maxBuf) (a : Operand) : (lengthEncoded a).Honest cfg := by
  unfold lengthEncoded
  split
  · exact Response.raised_honest _
  · have := encLen_length_le a.toNat
    exact Response.done_honest (by omega)

theorem lengthDecoded_honest (s : List Byte) : (lengthDecoded s).Honest cfg := by
  unfold lengthDecoded
  split
  · exact Response.raised_honest _
  · split
    · exact Response.raised_honest _
    · exact Response.done_nil_honest _ _

/-- The longest command frame: 8 bytes around a length field of 2 and a payload of 32767 (R5's bound on `MAX_BUF`). -/
theorem frameEncoded_honest (hbuf : 32777 ≤ cfg.maxBuf) (o i : Byte) (e : BitVec 16) (p : List Byte) :
    (frameEncoded cfg o i e p).Honest cfg := by
  unfold frameEncoded
  split
  · exact Response.raised_honest _
  case isFalse hlen =>
    have hfield := encLen_length_le p.length
    refine Response.done_honest ?_
    rw [commandFrame_length]
    unfold longLenMax at hlen
    omega

theorem probeEncoded_honest (hbuf : 32777 ≤ cfg.maxBuf) (c : Byte) : (probeEncoded cfg c).Honest cfg := by
  refine Response.done_honest ?_
  have hlen : (probeFrame cfg c).length = 5 := by simp [probeFrame]
  omega

/-! The replies: each `OUT` is a slice of `IN0` -/

theorem slice_length_le (s : List Byte) (i j : Nat) : (slice s i j).length ≤ s.length := by
  rw [slice_length]
  omega

variable {f : List Byte}

theorem replySplit_honest (hfit : f.length ≤ cfg.maxBuf) (l k : Nat) : (replySplit cfg f l k).Honest cfg := by
  unfold replySplit
  split_ifs
  case neg => exact Response.done_honest ((slice_length_le _ _ _).trans hfit)
  all_goals exact Response.raised_honest _

theorem replyChecked_honest (hfit : f.length ≤ cfg.maxBuf) : (replyChecked cfg f).Honest cfg := by
  unfold replyChecked
  repeat' split
  case h_2 => exact replySplit_honest hfit _ _
  all_goals exact Response.raised_honest _

theorem replyLength_honest (cfg : Config) (f : List Byte) : (replyLength cfg f).Honest cfg := by
  unfold replyLength
  repeat' split
  case h_2 => exact Response.done_nil_honest _ _
  all_goals exact Response.raised_honest _

theorem legacySplit_honest (hfit : f.length ≤ cfg.maxBuf) (x : Arrangement) (m : List Byte) (n : Nat) :
    (legacySplit cfg x m n f).Honest cfg := by
  unfold legacySplit
  split_ifs
  case neg => exact Response.done_honest ((slice_length_le _ _ _).trans hfit)
  all_goals exact Response.raised_honest _

/-! The field codec -/

theorem State.wrapped_honest (s : State) (w : IntWidth) (signed : Bool) : (s.wrapped w signed).Honest cfg :=
  Response.done_nil_honest _ _

theorem IntWidth.bytes_le (w : IntWidth) : w.bytes ≤ 4 := by cases w <;> decide

theorem State.packed_honest (hbuf : 32777 ≤ cfg.maxBuf) (s : State) (w : IntWidth) : (s.packed w).Honest cfg := by
  refine Response.done_honest ?_
  rw [leBytes_length]
  have := w.bytes_le
  omega

theorem State.unpacked_honest (s : State) (w : IntWidth) (signed : Bool) : (s.unpacked w signed).Honest cfg := by
  unfold State.unpacked
  split
  · exact Response.raised_honest _
  · exact Response.done_nil_honest _ _

theorem trimAtNull_length_le (s : List Byte) : (trimAtNull s).length ≤ s.length := by
  induction s with
  | nil => exact Nat.le_refl _
  | cons b s ih =>
    unfold trimAtNull
    split
    · exact Nat.zero_le _
    · exact Nat.succ_le_succ ih

theorem trimmed_honest (hfit : f.length ≤ cfg.maxBuf) : (trimmed f).Honest cfg :=
  Response.done_honest ((trimAtNull_length_le f).trans hfit)

theorem unixOfJ2000_honest (a : Operand) : (unixOfJ2000 a).Honest cfg :=
  Response.done_nil_honest _ _

theorem j2000OfUnix_honest (a : Operand) : (j2000OfUnix a).Honest cfg := by
  unfold j2000OfUnix
  split
  · exact Response.raised_honest _
  · exact Response.done_nil_honest _ _

end Honest

/-! ### Every step keeps the invariant -/

/-- What every operation answers: after the buffer check, a response put on a state of the same configuration, and an honest one
when `MAX_BUF` is as large as R5 asks and `IN0` fits it. -/
theorem exec_answers_honestly (i : Instr) {s : State} (hbuf : 32777 ≤ s.cfg.maxBuf) :
    ∃ (u : State) (r : Response), exec i s = .next (s.checked (u.respond r)) ∧ u.cfg = s.cfg ∧
      (s.request.WellFormed s.cfg → r.Honest s.cfg) := by
  cases i
  case crc8Clr | crc8Ld | crc8Upd | crc8Blk | crc8Rd | crc8Calc | crc16Clr | crc16Ld | crc16Upd | crc16Blk | crc16Rd | crc16Calc
      | crc32Clr | crc32Ld | crc32Upd | crc32Blk | crc32Rd | crc32Calc =>
    exact ⟨_, _, rfl, rfl, fun _ => crcResult_honest _⟩
  case crc8Tbl | crc16Tbl | crc32Tbl => exact ⟨_, _, rfl, rfl, fun _ => tableRead_honest _ _⟩
  case lenEnc => exact ⟨_, _, rfl, rfl, fun _ => lengthEncoded_honest hbuf _⟩
  case lenDec => exact ⟨_, _, rfl, rfl, fun _ => lengthDecoded_honest _⟩
  case frmEncx => exact ⟨_, _, rfl, rfl, fun _ => frameEncoded_honest hbuf _ _ _ _⟩
  case frmEncl => exact ⟨_, _, rfl, rfl, fun _ => probeEncoded_honest hbuf _⟩
  case frmChkx => exact ⟨_, _, rfl, rfl, fun hfit => replyChecked_honest hfit⟩
  case frmRxlen => exact ⟨_, _, rfl, rfl, fun _ => replyLength_honest _ _⟩
  case frmChkl => exact ⟨_, _, rfl, rfl, fun hfit => legacySplit_honest hfit _ _ _⟩
  case intWrapU8 | intWrapU16 | intWrapU32 | intWrapS8 | intWrapS16 | intWrapS32 =>
    exact ⟨_, _, rfl, rfl, fun _ => s.wrapped_honest _ _⟩
  case intPackU8 | intPackU16 | intPackU32 | intPackS8 | intPackS16 | intPackS32 =>
    exact ⟨_, _, rfl, rfl, fun _ => s.packed_honest hbuf _⟩
  case intUnpackU8 | intUnpackU16 | intUnpackU32 | intUnpackS8 | intUnpackS16 | intUnpackS32 =>
    exact ⟨_, _, rfl, rfl, fun _ => s.unpacked_honest _ _⟩
  case strTrim => exact ⟨_, _, rfl, rfl, fun hfit => trimmed_honest hfit⟩
  case timeJ2u => exact ⟨_, _, rfl, rfl, fun _ => unixOfJ2000_honest _⟩
  case timeU2j => exact ⟨_, _, rfl, rfl, fun _ => j2000OfUnix_honest _⟩

/-- An operation leads to the invariant from any well-formed configuration, whatever response was there before. -/
theorem exec_inv {i : Instr} {s t : State} (hcfg : s.cfg.WellFormed) (hexec : exec i s = .next t) : t.Inv := by
  have ⟨_, _, _, hbuf⟩ := hcfg
  obtain ⟨u, r, hanswer, hu, hr⟩ := exec_answers_honestly i hbuf
  obtain rfl : s.checked (u.respond r) = t := Host.Outcome.next.inj (hanswer.symm.trans hexec)
  rcases s.checked_cases (u.respond r) with ⟨-, hraise⟩ | ⟨hfit, hdone⟩
  · rw [hraise]
    exact State.respond_inv hcfg (Response.raised_honest _)
  · rw [hdone]
    exact State.respond_inv (hu ▸ hcfg) (hu ▸ hr hfit)

/-- Settles O12, by what a step can do: it holds the state, resets it, rejects the request or runs an operation. -/
theorem stepKeepsInvariant : Obligations.StepKeepsInvariant := by
  intro s t hinv hstep
  have ⟨hcfg, _⟩ := hinv
  rcases step_cases s with ⟨-, h⟩ | ⟨rest, -, h⟩ | ⟨r, rest, -, -, -, h⟩ | ⟨r, rest, i, -, -, h⟩
  case inr.inr.inr => exact exec_inv (s := s.present r rest) hcfg (h ▸ hstep)
  all_goals obtain rfl := Host.Outcome.next.inj (h.symm.trans hstep)
  · exact hinv
  · exact State.inv_of_no_response hcfg rfl
  · exact State.respond_inv (s := s.present r rest) hcfg (Response.raised_honest _)

end Sys2Proof.Machine

/-! ### INT.WRAP (44_field_codec.md R180, R181) -/

namespace Sys2Proof.Machine

/-- An operation that writes no accumulator answers its response and changes nothing else, when `IN0` fits `MAX_BUF`. -/
theorem exec_of_response {i : Instr} {s : State} {r : Response} (harm : exec i s = .next (s.checked (s.respond r)))
    (hfit : s.request.WellFormed s.cfg) : exec i s = .next { s with response := some r } := by
  rw [harm, State.checked_of_fits hfit, State.respond]

/-- The unsigned reading of the low `8w` bits of `A`: a remainder. -/
theorem State.wrapped_unsigned (s : State) (w : IntWidth) :
    s.wrapped w false = .done (BitVec.ofNat 64 (s.request.a.toNat % 2 ^ w.bits)) := by
  simp only [State.wrapped, readFixed, State.opLow, ← BitVec.toNat_setWidth, BitVec.ofNat_toNat, Bool.false_eq_true, if_false]

/-- The two's-complement reading of the low `8w` bits of `A`: a balanced remainder. -/
theorem State.wrapped_signed (s : State) (w : IntWidth) :
    s.wrapped w true = .done (BitVec.ofInt 64 (Int.bmod s.request.a.toNat (2 ^ w.bits))) := by
  simp only [State.wrapped, readFixed, State.opLow, ← BitVec.toInt_setWidth, BitVec.signExtend, if_true]

section IntWrap

variable {i : Instr} {s : State} {w : IntWidth}

theorem exec_of_wrapped_unsigned (harm : exec i s = .next (s.checked (s.respond (s.wrapped w false))))
    (hfit : s.request.WellFormed s.cfg) :
    exec i s = .next { s with response := some ⟨.ok, BitVec.ofNat 64 (s.request.a.toNat % 2 ^ w.bits), 0, []⟩ } := by
  rw [exec_of_response harm hfit, State.wrapped_unsigned, Response.done]

theorem exec_of_wrapped_signed (harm : exec i s = .next (s.checked (s.respond (s.wrapped w true))))
    (hfit : s.request.WellFormed s.cfg) :
    exec i s = .next { s with response := some ⟨.ok, BitVec.ofInt 64 (Int.bmod s.request.a.toNat (2 ^ w.bits)), 0, []⟩ } := by
  rw [exec_of_response harm hfit, State.wrapped_signed, Response.done]

end IntWrap

/-- Settles O54: the arm of each form, with its reading as arithmetic. 32 bits keep the whole of `A`. -/
theorem intWrapResult : Obligations.IntWrapResult := by
  intro s hfit a give
  have hwhole : a.toNat % 2 ^ 32 = a.toNat := Nat.mod_eq_of_lt a.isLt
  have hu32 : exec .intWrapU32 s = give (BitVec.ofNat 64 (a.toNat % 2 ^ 32)) :=
    exec_of_wrapped_unsigned (w := .four) rfl hfit
  exact ⟨exec_of_wrapped_unsigned (w := .one) rfl hfit, exec_of_wrapped_unsigned (w := .two) rfl hfit, hwhole ▸ hu32,
    exec_of_wrapped_signed (w := .one) rfl hfit, exec_of_wrapped_signed (w := .two) rfl hfit,
    exec_of_wrapped_signed (w := .four) rfl hfit⟩

end Sys2Proof.Machine

/-! ### The accumulators (10_state.md R20): who writes one, who reads one

R20 says the same of the three engines, so its facts are stated once, for an engine `e`. At each of the three engines they are
statements about `ACC8`, `ACC16` and `ACC32` by definition. -/

namespace Sys2Proof.Machine

/-- `W`, the width of an engine's accumulator (10_state.md R20). -/
abbrev Engine.width : Engine → Nat
  | .crc8 => 8
  | .crc16 => 16
  | .crc32 => 32

/-- The operations that write an engine's accumulator (R20, column "written by"). -/
def Engine.writers (e : Engine) : List Instr := [e.clr, e.ld, e.upd, e.blk]

/-- The operations that read an engine's accumulator (R20, column "read by"). -/
def Engine.readers (e : Engine) : List Instr := [e.upd, e.blk, e.rd]

/-- The accumulator of an engine. -/
def State.acc (s : State) : (e : Engine) → BitVec e.width
  | .crc8 => s.acc8
  | .crc16 => s.acc16
  | .crc32 => s.acc32

/-- `ACCW <- v` for an engine. -/
def State.setAcc (s : State) : (e : Engine) → BitVec e.width → State
  | .crc8, v => s.setAcc8 v
  | .crc16, v => s.setAcc16 v
  | .crc32, v => s.setAcc32 v

section Rules

variable (s : State) (e : Engine) (v : BitVec e.width)

@[simp] theorem State.setAcc_cfg : (s.setAcc e v).cfg = s.cfg := by cases e <;> rfl
@[simp] theorem State.setAcc_request : (s.setAcc e v).request = s.request := by cases e <;> rfl
@[simp] theorem State.setAcc_host : (s.setAcc e v).host = s.host := by cases e <;> rfl
@[simp] theorem State.setAcc_response : (s.setAcc e v).response = s.response := by cases e <;> rfl
@[simp] theorem State.setAcc_opIn : (s.setAcc e v).opIn = s.opIn := by cases e <;> rfl
@[simp] theorem State.setAcc_acc_same : (s.setAcc e v).acc e = v := by cases e <;> rfl

@[simp] theorem State.setAcc_acc_self : s.setAcc e (s.acc e) = s := by cases e <;> rfl

variable {e} in
theorem State.setAcc_acc_other {e' : Engine} (h : e' ≠ e) : (s.setAcc e v).acc e' = s.acc e' := by
  cases e <;> cases e'
  case crc8.crc8 | crc16.crc16 | crc32.crc32 => exact absurd rfl h
  all_goals rfl

@[simp] theorem State.respond_acc (r : Response) : (s.respond r).acc e = s.acc e := by cases e <;> rfl
@[simp] theorem State.raise_acc (x : Status) : (s.raise x).acc e = s.acc e := by cases e <;> rfl
@[simp] theorem State.present_acc (r : Request) (rest : List HostMove) : (s.present r rest).acc e = s.acc e := by cases e <;> rfl

theorem State.raise_setAcc (x : Status) : (s.setAcc e v).raise x = (s.raise x).setAcc e v := by cases e <;> rfl

/-- The buffer check reads no accumulator. -/
theorem State.checked_setAcc (t : State) : (s.setAcc e v).checked (t.setAcc e v) = (s.checked t).setAcc e v := by
  rcases s.checked_cases t with ⟨hlong, h⟩ | ⟨hfit, h⟩
  · rw [h, State.checked_of_tooLong (by simpa using hlong), State.raise_setAcc]
  · rw [h, State.checked_of_fits (by simpa using hfit)]

end Rules

/-! Writers -/

section Writers

variable {i : Instr} {e : Engine} {s t : State}

/-- `exec_cases` over the engines: an operation answers, and at most writes the accumulator of the engine it is a writer of. -/
theorem exec_writes_own_acc (i : Instr) (s : State) :
    ∃ r : Response, exec i s = .next (s.checked (s.respond r)) ∨
      ∃ (e : Engine) (v : BitVec e.width), i ∈ e.writers ∧ exec i s = .next (s.checked ((s.setAcc e v).respond r)) := by
  obtain ⟨r, h | ⟨hi, -, -, v, h⟩ | ⟨hi, -, -, v, h⟩ | ⟨hi, -, -, v, h⟩⟩ := exec_cases i s
  · exact ⟨r, .inl h⟩
  · exact ⟨r, .inr ⟨.crc8, v, hi, h⟩⟩
  · exact ⟨r, .inr ⟨.crc16, v, hi, h⟩⟩
  · exact ⟨r, .inr ⟨.crc32, v, hi, h⟩⟩

/-- A writer answers the value it gives its accumulator (R28). -/
theorem exec_of_writer (hi : i ∈ e.writers) (s : State) :
    ∃ v : BitVec e.width, exec i s = .next (s.checked ((s.setAcc e v).respond (crcResult v))) := by
  simp only [Engine.writers, List.mem_cons, List.not_mem_nil, or_false] at hi
  rcases hi with rfl | rfl | rfl | rfl <;> cases e <;> exact ⟨_, rfl⟩

theorem Engine.mem_writers_of_upd_blk (hi : i ∈ [e.upd, e.blk]) : i ∈ e.writers :=
  List.mem_cons_of_mem _ (List.mem_cons_of_mem _ hi)

theorem exec_total (i : Instr) (s : State) : ∃ t, exec i s = .next t := by
  obtain ⟨r, h | ⟨e, v, -, h⟩⟩ := exec_writes_own_acc i s <;> exact ⟨_, h⟩

/-- The frame of every operation: all but the response and the accumulators it is a writer of. -/
theorem exec_frame (hexec : exec i s = .next t) :
    (∀ e : Engine, i ∉ e.writers → t.acc e = s.acc e) ∧ t.cfg = s.cfg ∧ t.request = s.request ∧ t.host = s.host := by
  obtain ⟨r, h | ⟨e, v, hi, h⟩⟩ := exec_writes_own_acc i s <;> obtain rfl := Host.Outcome.next.inj (h.symm.trans hexec)
  · rcases s.checked_cases (s.respond r) with ⟨-, hc⟩ | ⟨-, hc⟩ <;> simp [hc]
  · rcases s.checked_cases ((s.setAcc e v).respond r) with ⟨-, hc⟩ | ⟨-, hc⟩
    · simp [hc]
    · have hother (e' : Engine) (hi' : i ∉ e'.writers) : (s.setAcc e v).acc e' = s.acc e' :=
        s.setAcc_acc_other v fun he => hi' (he ▸ hi)
      simpa [hc] using hother

end Writers

/-- Settles O19: the frame of every operation, at the three engines. -/
theorem accumulatorsAreWrittenOnlyByTheirEngine : Obligations.AccumulatorsAreWrittenOnlyByTheirEngine := by
  intro i s t hexec
  obtain ⟨hacc, hrest⟩ := exec_frame hexec
  exact ⟨hacc .crc8, hacc .crc16, hacc .crc32, hrest⟩

/-! Readers -/

section Readers

variable {i : Instr} {e : Engine}

/-- CLR and LD complete in the same state whatever the accumulator held. -/
theorem exec_setAcc_of_preset (hi : i ∈ [e.clr, e.ld]) (s : State) (x : BitVec e.width) :
    ∃ (v : BitVec e.width) (r : Response), exec i s = .next (s.checked ((s.setAcc e v).respond r)) ∧
      exec i (s.setAcc e x) = .next ((s.setAcc e x).checked ((s.setAcc e v).respond r)) := by
  simp only [List.mem_cons, List.not_mem_nil, or_false] at hi
  rcases hi with rfl | rfl <;> cases e <;> exact ⟨_, _, rfl, rfl⟩

/-- An operation that neither reads nor writes an engine's accumulator completes in the same state around it. -/
theorem exec_setAcc_of_unrelated (hpreset : i ∉ [e.clr, e.ld]) (hread : i ∉ e.readers) (s : State) (x : BitVec e.width) :
    ∃ t, exec i s = .next (s.checked t) ∧ exec i (s.setAcc e x) = .next ((s.setAcc e x).checked (t.setAcc e x)) := by
  cases e <;> cases i
  case crc8.crc8Clr | crc8.crc8Ld | crc16.crc16Clr | crc16.crc16Ld | crc32.crc32Clr | crc32.crc32Ld =>
    exact absurd (by decide) hpreset
  case crc8.crc8Upd | crc8.crc8Blk | crc8.crc8Rd | crc16.crc16Upd | crc16.crc16Blk | crc16.crc16Rd | crc32.crc32Upd
      | crc32.crc32Blk | crc32.crc32Rd =>
    exact absurd (by decide) hread
  all_goals exact ⟨_, rfl, rfl⟩

/-- An operation that does not read an engine's accumulator gives, from a state with another value there, the same state up to
that accumulator; CLR and LD that complete give the accumulator the same value too. -/
theorem exec_setAcc (hread : i ∉ e.readers) (s : State) (x : BitVec e.width) :
    ∃ t x', exec i s = .next t ∧ exec i (s.setAcc e x) = .next (t.setAcc e x') ∧
      (i ∈ [e.clr, e.ld] → s.request.WellFormed s.cfg → x' = t.acc e) := by
  by_cases hpreset : i ∈ [e.clr, e.ld]
  · obtain ⟨v, r, h, hx⟩ := exec_setAcc_of_preset hpreset s x
    rcases s.checked_cases ((s.setAcc e v).respond r) with ⟨hlong, hc⟩ | ⟨hfit, hc⟩
    · refine ⟨_, x, hc ▸ h, ?_, fun _ hfit => absurd hlong (Nat.not_lt.mpr hfit)⟩
      rw [hx, State.checked_of_tooLong (by simpa using hlong), State.raise_setAcc]
    · refine ⟨_, _, hc ▸ h, ?_, fun _ _ => rfl⟩
      rw [hx, State.checked_of_fits (by simpa using hfit), State.setAcc_acc_self]
  · obtain ⟨t, h, hx⟩ := exec_setAcc_of_unrelated hpreset hread s x
    exact ⟨_, x, h, by rw [hx, State.checked_setAcc], fun hi => absurd hi hpreset⟩

end Readers

/-- Settles O20: a run from a state with another accumulator ends in the same state up to that accumulator. -/
theorem accumulatorsAreReadOnlyByTheirEngine : Obligations.AccumulatorsAreReadOnlyByTheirEngine := by
  intro i s x y z
  refine ⟨fun hread => ?_, fun hread => ?_, fun hread => ?_⟩
  · obtain ⟨t, x', h, hx, hpreset⟩ := exec_setAcc (e := .crc8) hread s x
    exact ⟨t, _, h, hx, rfl, rfl, rfl, hpreset⟩
  · obtain ⟨t, y', h, hy, hpreset⟩ := exec_setAcc (e := .crc16) hread s y
    exact ⟨t, _, h, hy, rfl, rfl, rfl, hpreset⟩
  · obtain ⟨t, z', h, hz, hpreset⟩ := exec_setAcc (e := .crc32) hread s z
    exact ⟨t, _, h, hz, rfl, rfl, rfl, hpreset⟩

/-! ### Runs (70_reset_and_hazards.md R254) -/

section Runs

variable {r : Request} {rs : List Request} {s t u : State} {os : List Response}

/-- A request served is rejected or runs the operation it selects. -/
theorem State.serve_cases (s : State) (r : Request) :
    (∃ x, decode r.cw = .error x ∧ s.serve r = .next ((s.present r []).raise .illegalOp)) ∨
      ∃ i, decode r.cw = .ok i ∧ s.serve r = exec i (s.present r []) := by
  rcases step_cases (s.withHost [.request r]) with
    ⟨hhost, -⟩ | ⟨_, hhost, -⟩ | ⟨_, _, x, hhost, hd, h⟩ | ⟨_, _, i, hhost, hd, h⟩
  all_goals cases hhost
  · exact .inl ⟨x, hd, h⟩
  · exact .inr ⟨i, hd, h⟩

theorem observe_cons (hserve : s.serve r = .next t) (hrest : observe rs t = .next (os, u)) :
    observe (r :: rs) s = .next (t.response.toList ++ os, u) := by
  simp [observe, hserve, hrest]

/-- A property that serving each of the requests keeps, holds at the end of the run, and the run ends. -/
theorem observe_keeps {P : State → Prop} (hkeep : ∀ r ∈ rs, ∀ s, P s → ∃ t, s.serve r = .next t ∧ P t) (hs : P s) :
    ∃ os u, observe rs s = .next (os, u) ∧ P u := by
  induction rs generalizing s with
  | nil => exact ⟨[], s, rfl, hs⟩
  | cons r rs ih =>
    obtain ⟨t, hserve, ht⟩ := hkeep r List.mem_cons_self s hs
    obtain ⟨os, u, hrest, hu⟩ := ih (fun r' hr' => hkeep r' (List.mem_cons_of_mem r hr')) ht
    exact ⟨_, u, observe_cons hserve hrest, hu⟩

/-- A request that selects no writer of an engine, an illegal word among them, is served without touching its accumulator. -/
theorem State.serve_keeps_acc {e : Engine} (hr : ∀ i ∈ e.writers, decode r.cw ≠ .ok i) (s : State) :
    ∃ t, s.serve r = .next t ∧ t.acc e = s.acc e := by
  rcases s.serve_cases r with ⟨x, -, h⟩ | ⟨i, hd, h⟩
  · exact ⟨_, h, by simp⟩
  · obtain ⟨t, ht⟩ := exec_total i (s.present r [])
    obtain ⟨hacc, -⟩ := exec_frame ht
    exact ⟨t, h.trans ht, by simpa using hacc e fun hi => hr i hi hd⟩

theorem observe_keeps_acc {e : Engine} (hrs : ∀ r ∈ rs, ∀ i ∈ e.writers, decode r.cw ≠ .ok i) (s : State) :
    ∃ os u, observe rs s = .next (os, u) ∧ u.acc e = s.acc e := by
  refine observe_keeps (P := fun u => u.acc e = s.acc e) (fun r hr s' hs' => ?_) rfl
  obtain ⟨t, hserve, ht⟩ := s'.serve_keeps_acc (hrs r hr)
  exact ⟨t, hserve, ht.trans hs'⟩

end Runs

/-- Settles O21: a run without writers of CRC16 keeps its accumulator. -/
theorem acc16SurvivesOtherRequests : Obligations.Acc16SurvivesOtherRequests := fun _ s hrs =>
  observe_keeps_acc (e := .crc16) hrs s

/-! ### RD, and saving and restoring an accumulator (40_crc_engines.md R114, R121, R128; 70_reset_and_hazards.md R241) -/

/-- Settles O27: RD answers and writes no accumulator. -/
theorem readGivesFinishedCrc : Obligations.ReadGivesFinishedCrc := fun _ hfit =>
  ⟨exec_of_response rfl hfit, exec_of_response rfl hfit, exec_of_response rfl hfit⟩

section Save

variable {i : Instr} {e : Engine} {s u : State}

theorem Engine.width_le (e : Engine) : e.width ≤ 32 := by cases e <;> decide

/-- LD sets the accumulator to the low bits of `A`. -/
theorem exec_ld_acc (hfit : s.request.WellFormed s.cfg) :
    ∃ v, exec e.ld s = .next v ∧ v.acc e = s.request.a.setWidth e.width := by
  have harm : exec e.ld s = .next (s.checked ((s.setAcc e (s.opLow e.width)).respond (crcResult (s.opLow e.width)))) := by
    cases e <;> rfl
  rw [State.checked_of_fits hfit] at harm
  exact ⟨_, harm, by simp [State.opLow]⟩

/-- A raw accumulator goes through the 64 bits of `R0` and the 32 bits of `A` unchanged. -/
theorem acc_through_ports (v : BitVec e.width) : ((v.setWidth 64).setWidth 32).setWidth e.width = v := by
  have h32 := e.width_le
  rw [BitVec.setWidth_setWidth_of_le _ h32, BitVec.setWidth_setWidth_of_le _ (by omega), BitVec.setWidth_eq]

/-- What a writer answers is what LD needs, in any later state `u`, to set the accumulator as the writer left it (R241). -/
theorem exec_writer_then_ld (hi : i ∈ e.writers) (hs : s.request.WellFormed s.cfg) (hu : u.request.WellFormed u.cfg) :
    ∃ t r, exec i s = .next t ∧ t.response = some r ∧ r.r0 = (t.acc e).setWidth 64 ∧
      (u.request.a = r.r0.setWidth 32 → ∃ v, exec e.ld u = .next v ∧ v.acc e = t.acc e) := by
  obtain ⟨v, h⟩ := exec_of_writer hi s
  rw [State.checked_of_fits hs] at h
  refine ⟨_, crcResult v, h, rfl, by simp [crcResult], fun ha => ?_⟩
  obtain ⟨w, hld, hw⟩ := exec_ld_acc (e := e) hu
  refine ⟨w, hld, ?_⟩
  rw [hw, ha, State.respond_acc, State.setAcc_acc_same]
  exact acc_through_ports v

end Save

/-- Settles O35: UPD and BLK are writers, so LD restores what they answer. -/
theorem savedAccumulatorIsRestored : Obligations.SavedAccumulatorIsRestored := fun _ _ hs hu =>
  ⟨fun _ hi => exec_writer_then_ld (e := .crc8) (Engine.mem_writers_of_upd_blk hi) hs hu,
    fun _ hi => exec_writer_then_ld (e := .crc16) (Engine.mem_writers_of_upd_blk hi) hs hu,
    fun _ hi => exec_writer_then_ld (e := .crc32) (Engine.mem_writers_of_upd_blk hi) hs hu⟩

end Sys2Proof.Machine

/-! ### A step on a request that selects an operation (20_memory.md R50; 30_encoding.md R60, R62) -/

namespace Sys2Proof.Machine

/-- Of all a step can do, only serving the request agrees with a request that decodes. -/
theorem step_of_decode_ok {s : State} {r : Request} {rest : List HostMove} {i : Instr} (hhost : s.host = .request r :: rest)
    (hdecode : decode r.cw = .ok i) : step s = exec i (s.present r rest) := by
  rcases step_cases s with ⟨h, -⟩ | ⟨_, h, -⟩ | ⟨_, _, x, h, hd, -⟩ | ⟨_, _, j, h, hd, hstep⟩
  all_goals cases hhost.symm.trans h
  · cases hdecode.symm.trans hd
  · cases hdecode.symm.trans hd
    exact hstep

/-- Settles O5: `State.present` is what puts the request on the port. -/
theorem stepRunsDecodedRequest : Obligations.StepRunsDecodedRequest := fun _ _ _ _ hhost hdecode =>
  step_of_decode_ok hhost hdecode

end Sys2Proof.Machine

/-! ### INT.PACK (20_memory.md R43; 44_field_codec.md R182) -/

namespace Sys2Proof.Machine

/-- Byte `j` of a little-endian field is the bits of `v` from `8 j` on. -/
theorem leBytes_eq_map (n : Nat) (v : Operand) : leBytes n v = (List.range n).map fun j => v.extractLsb' (8 * j) 8 := by
  induction n generalizing v with
  | zero => rfl
  | succ n ih =>
    have hshift (j : Nat) : (v >>> 8).extractLsb' (8 * j) 8 = v.extractLsb' (8 * (j + 1)) 8 := by
      rw [field_eq_shift, field_eq_shift, ← BitVec.shiftRight_add, Nat.mul_succ, Nat.add_comm 8]
    simp [leBytes, ih, List.range_succ_eq_map, hshift]

theorem IntWidth.zext64_bytes (w : IntWidth) : zext64 w.bytes = BitVec.ofNat 64 w.bytes :=
  zext64_of_lt (w.bytes_le.trans_lt (by decide))

theorem exec_of_packed {i : Instr} {s : State} {w : IntWidth} (harm : exec i s = .next (s.checked (s.respond (s.packed w))))
    (hfit : s.request.WellFormed s.cfg) :
    exec i s = .next { s with response := some ⟨.ok, BitVec.ofNat 64 w.bytes, 0,
      (List.range w.bytes).map fun j => s.request.a.extractLsb' (8 * j) 8⟩ } := by
  rw [exec_of_response harm hfit, State.packed, w.zext64_bytes, leBytes_eq_map, Response.done, State.opA]

/-- Settles O55: both signs of a width have the arm of that width. -/
theorem intPackResult : Obligations.IntPackResult := fun _ hfit =>
  ⟨exec_of_packed (w := .one) rfl hfit, exec_of_packed (w := .one) rfl hfit,
    exec_of_packed (w := .two) rfl hfit, exec_of_packed (w := .two) rfl hfit,
    exec_of_packed (w := .four) rfl hfit, exec_of_packed (w := .four) rfl hfit⟩

end Sys2Proof.Machine

/-! ### INT.UNPACK (20_memory.md R43; 44_field_codec.md R183) -/

namespace Sys2Proof.Machine

/-- A byte below the others of a number is the next lower byte of its little-endian field. -/
theorem toNat_append_byte {n : Nat} (x : BitVec n) (b : Byte) : (x ++ b).toNat = b.toNat + 2 ^ 8 * x.toNat := by
  rw [BitVec.toNat_append, ← Nat.shiftLeft_add_eq_or_of_lt b.isLt, Nat.shiftLeft_eq]
  omega

theorem fromLe_cons_append {n : Nat} {f : List Byte} {x : BitVec n} (b : Byte) (h : fromLe f = x.toNat) :
    fromLe (b :: f) = (x ++ b).toNat := by
  rw [fromLe, h, toNat_append_byte]

theorem fromLe_one (b0 : Byte) : fromLe [b0] = b0.toNat := by
  simp [fromLe]

theorem fromLe_two (b0 b1 : Byte) : fromLe [b0, b1] = (b1 ++ b0).toNat :=
  fromLe_cons_append b0 (fromLe_one b1)

theorem fromLe_four (b0 b1 b2 b3 : Byte) : fromLe [b0, b1, b2, b3] = (b3 ++ b2 ++ b1 ++ b0).toNat :=
  fromLe_cons_append b0 (fromLe_cons_append b1 (fromLe_two b2 b3))

section IntUnpack

variable {iu is : Instr} {s : State} {w : IntWidth}

/-- Fewer bytes than the field has. -/
theorem State.unpacked_short (h : s.request.in0.length < w.bytes) (signed : Bool) :
    s.unpacked w signed = .raised .invalidShort := if_pos h

/-- A whole field, with any bytes after it. -/
theorem State.unpacked_field {field rest : List Byte} {x : BitVec w.bits} (hin : s.request.in0 = field ++ rest)
    (hlen : field.length = w.bytes) (hx : fromLe field = x.toNat) (signed : Bool) :
    s.unpacked w signed = .done (readFixed signed x) := by
  have hlong : ¬ s.opIn.length < w.bytes := by simp [State.opIn, hin, hlen]
  have hfield : s.opIn.take w.bytes = field := by rw [State.opIn, hin, List.take_left' hlen]
  rw [State.unpacked, if_neg hlong, hfield, hx, BitVec.ofNat_toNat, BitVec.setWidth_eq]

/-- The unsigned form `iu` and the signed form `is` of one width, on a short input. -/
theorem exec_of_unpacked_short (hu : exec iu s = .next (s.checked (s.respond (s.unpacked w false))))
    (hs : exec is s = .next (s.checked (s.respond (s.unpacked w true)))) (hfit : s.request.WellFormed s.cfg)
    (h : s.request.in0.length < w.bytes) :
    exec iu s = .next { s with response := some ⟨.invalidShort, 0, 0, []⟩ } ∧
      exec is s = .next { s with response := some ⟨.invalidShort, 0, 0, []⟩ } := by
  rw [exec_of_response hu hfit, exec_of_response hs hfit, State.unpacked_short h, State.unpacked_short h, Response.raised]
  exact ⟨rfl, rfl⟩

/-- The unsigned form `iu` and the signed form `is` of one width, on a whole field. -/
theorem exec_of_unpacked_field {field rest : List Byte} {x : BitVec w.bits}
    (hu : exec iu s = .next (s.checked (s.respond (s.unpacked w false))))
    (hs : exec is s = .next (s.checked (s.respond (s.unpacked w true)))) (hfit : s.request.WellFormed s.cfg)
    (hin : s.request.in0 = field ++ rest) (hlen : field.length = w.bytes) (hx : fromLe field = x.toNat) :
    exec iu s = .next { s with response := some ⟨.ok, x.setWidth 64, 0, []⟩ } ∧
      exec is s = .next { s with response := some ⟨.ok, BitVec.ofInt 64 x.toInt, 0, []⟩ } := by
  rw [exec_of_response hu hfit, exec_of_response hs hfit, State.unpacked_field hin hlen hx, State.unpacked_field hin hlen hx]
  exact ⟨rfl, rfl⟩

end IntUnpack

/-- Settles O56: a whole field and a short input, for each width. -/
theorem intUnpackResult : Obligations.IntUnpackResult := fun _ hfit =>
  ⟨fun b0 _ hin => exec_of_unpacked_field (w := .one) rfl rfl hfit hin rfl (fromLe_one b0),
    fun b0 b1 _ hin => exec_of_unpacked_field (w := .two) rfl rfl hfit hin rfl (fromLe_two b0 b1),
    fun b0 b1 b2 b3 _ hin => exec_of_unpacked_field (w := .four) rfl rfl hfit hin rfl (fromLe_four b0 b1 b2 b3),
    exec_of_unpacked_short (w := .one) rfl rfl hfit, exec_of_unpacked_short (w := .two) rfl rfl hfit,
    exec_of_unpacked_short (w := .four) rfl rfl hfit⟩

end Sys2Proof.Machine

/-! ### The command word (30_encoding.md R62 to R67): what the decoder does with every word

A word's `OPC` is no operation's, one operation's without modifiers, or that of the six forms of an INT operation. -/

namespace Sys2Proof.Machine

/-- A command word is its `OPC` and its `MOD` (R62). -/
theorem opcOf_append_modOf (cw : CommandWord) : opcOf cw ++ modOf cw = cw := by
  apply BitVec.eq_of_getLsbD_eq
  intro j hj
  change (cw.extractLsb' 8 8 ++ cw.extractLsb' 0 8).getLsbD j = _
  rw [BitVec.getLsbD_append]
  by_cases h8 : j < 8
  · simp [h8]
  · have hhi : j - 8 < 8 := by omega
    have hj' : 8 + (j - 8) = j := by omega
    simp [h8, hhi, hj']

/-- A bit field within `MOD` is the one of the word (R62, R63). -/
theorem modOf_extractLsb' (cw : CommandWord) {lo n : Nat} (h : lo + n ≤ 8) :
    (modOf cw).extractLsb' lo n = cw.extractLsb' lo n := by
  apply BitVec.eq_of_getLsbD_eq
  intro j hj
  have hj' : lo + j < 8 := by omega
  simp [modOf, hj, hj']

/-- The six forms of INT.WRAP, by their width code and sign (R63). -/
def intWrapForm : IntWidth → Bool → Instr
  | .one, false => .intWrapU8
  | .two, false => .intWrapU16
  | .four, false => .intWrapU32
  | .one, true => .intWrapS8
  | .two, true => .intWrapS16
  | .four, true => .intWrapS32

/-- The six forms of INT.PACK. -/
def intPackForm : IntWidth → Bool → Instr
  | .one, false => .intPackU8
  | .two, false => .intPackU16
  | .four, false => .intPackU32
  | .one, true => .intPackS8
  | .two, true => .intPackS16
  | .four, true => .intPackS32

/-- The six forms of INT.UNPACK. -/
def intUnpackForm : IntWidth → Bool → Instr
  | .one, false => .intUnpackU8
  | .two, false => .intUnpackU16
  | .four, false => .intUnpackU32
  | .one, true => .intUnpackS8
  | .two, true => .intUnpackS16
  | .four, true => .intUnpackS32

/-- The `MOD` of a form: the width code in `MOD[1:0]`, the sign in `MOD[2]` (R63). -/
def formModifier : IntWidth → Bool → Byte
  | .one, false => 0
  | .two, false => 1
  | .four, false => 2
  | .one, true => 4
  | .two, true => 5
  | .four, true => 6

theorem intWrapForm_fields (w : IntWidth) (signed : Bool) :
    (intWrapForm w signed).opc = 0x70 ∧ (intWrapForm w signed).modifier = formModifier w signed := by
  cases w <;> cases signed <;> exact ⟨rfl, rfl⟩

theorem intPackForm_fields (w : IntWidth) (signed : Bool) :
    (intPackForm w signed).opc = 0x71 ∧ (intPackForm w signed).modifier = formModifier w signed := by
  cases w <;> cases signed <;> exact ⟨rfl, rfl⟩

theorem intUnpackForm_fields (w : IntWidth) (signed : Bool) :
    (intUnpackForm w signed).opc = 0x72 ∧ (intUnpackForm w signed).modifier = formModifier w signed := by
  cases w <;> cases signed <;> exact ⟨rfl, rfl⟩

/-- `decodeForm` on the forms of one operation. -/
def decodeForms (m : Byte) (form : IntWidth → Bool → Instr) : Except Illegal Instr :=
  decodeForm m (form .one false) (form .two false) (form .four false) (form .one true) (form .two true) (form .four true)

/-- The modifiers an INT operation does not allow: width code 3, or a bit above the sign (R63). -/
abbrev IllegalForm (m : Byte) : Prop := m.extractLsb' 0 2 = 3 ∨ m.extractLsb' 3 5 ≠ 0

theorem illegalForm_or_formModifier (m : Byte) : IllegalForm m ∨ ∃ w signed, m = formModifier w signed := by
  have h : ∀ m : Byte, IllegalForm m ∨ m = 0 ∨ m = 1 ∨ m = 2 ∨ m = 4 ∨ m = 5 ∨ m = 6 := by decide
  refine (h m).imp_right fun hm => ?_
  rcases hm with rfl | rfl | rfl | rfl | rfl | rfl
  exacts [⟨.one, false, rfl⟩, ⟨.two, false, rfl⟩, ⟨.four, false, rfl⟩,
    ⟨.one, true, rfl⟩, ⟨.two, true, rfl⟩, ⟨.four, true, rfl⟩]

theorem not_illegalForm_formModifier (w : IntWidth) (signed : Bool) : ¬ IllegalForm (formModifier w signed) := by
  cases w <;> cases signed <;> decide

/-! What each of the two decoders of a modifier answers -/

section Modifier

variable {m : Byte} {i j : Instr} {form : IntWidth → Bool → Instr} {e : Illegal}

theorem decodePlain_eq_ok_iff : decodePlain m i = .ok j ↔ m = 0 ∧ i = j := by
  by_cases hm : m = 0#8 <;> simp [decodePlain, hm]

theorem decodePlain_eq_error_iff : decodePlain m i = .error e ↔ m ≠ 0 ∧ .reservedModifier = e := by
  by_cases hm : m = 0#8 <;> simp [decodePlain, hm]

theorem decodeForms_formModifier (form : IntWidth → Bool → Instr) (w : IntWidth) (signed : Bool) :
    decodeForms (formModifier w signed) form = .ok (form w signed) := by
  cases w <;> cases signed <;> rfl

theorem decodeForms_of_illegal (hm : IllegalForm m) : decodeForms m form = .error .reservedModifier := by
  by_cases h5 : m.extractLsb' 3 5 = 0
  · have h3 : m.extractLsb' 0 2 = 3 := hm.resolve_right (not_not_intro h5)
    simp [decodeForms, decodeForm, h5, h3]
  · exact if_pos h5

theorem decodeForms_ok (h : decodeForms m form = .ok i) : ∃ w signed, m = formModifier w signed ∧ form w signed = i := by
  rcases illegalForm_or_formModifier m with hm | ⟨w, signed, rfl⟩
  · cases (decodeForms_of_illegal hm).symm.trans h
  · exact ⟨w, signed, rfl, Except.ok.inj ((decodeForms_formModifier form w signed).symm.trans h)⟩

theorem decodeForms_eq_error_iff : decodeForms m form = .error e ↔ IllegalForm m ∧ .reservedModifier = e := by
  rcases illegalForm_or_formModifier m with hm | ⟨w, signed, rfl⟩
  · simp [decodeForms_of_illegal hm, hm]
  · simp [decodeForms_formModifier, not_illegalForm_formModifier w signed]

end Modifier

/-- All the decoder can do (R62, R66): the code is no operation's, that of one operation without modifiers, or that of the six
forms of an INT operation. -/
theorem decode_cases (cw : CommandWord) :
    (decode cw = .error .reservedOpcode ∧ ∀ i : Instr, i.opc ≠ opcOf cw) ∨
    (∃ i : Instr, decode cw = decodePlain (modOf cw) i ∧ i.opc = opcOf cw ∧ i.modifier = 0 ∧
      opcOf cw ∉ ([0x70, 0x71, 0x72] : List Byte)) ∨
    (∃ form : IntWidth → Bool → Instr, decode cw = decodeForms (modOf cw) form ∧
      (∀ w signed, (form w signed).opc = opcOf cw ∧ (form w signed).modifier = formModifier w signed) ∧
      opcOf cw ∈ ([0x70, 0x71, 0x72] : List Byte)) := by
  have hopc {n : Nat} (h : (opcOf cw).toNat = n) : opcOf cw = BitVec.ofNat 8 n := by
    rw [← h, BitVec.ofNat_toNat, BitVec.setWidth_eq]
  unfold decode
  split
  case h_29 h => exact .inr (.inr ⟨intWrapForm, rfl, hopc h ▸ intWrapForm_fields, hopc h ▸ by decide⟩)
  case h_30 h => exact .inr (.inr ⟨intPackForm, rfl, hopc h ▸ intPackForm_fields, hopc h ▸ by decide⟩)
  case h_31 h => exact .inr (.inr ⟨intUnpackForm, rfl, hopc h ▸ intUnpackForm_fields, hopc h ▸ by decide⟩)
  case h_35 =>
    refine .inl ⟨rfl, fun i hi => ?_⟩
    cases i <;> simp [← hi, Instr.opc] at *
  all_goals
    rename_i h
    exact .inr (.inl ⟨_, rfl, (hopc h).symm, rfl, hopc h ▸ by decide⟩)

/-! Decoding and encoding -/

theorem decode_encode (i : Instr) : decode (encode i) = .ok i := by cases i <;> rfl

/-- A word that decodes has the two fields of its operation. -/
theorem fields_of_decode_ok {cw : CommandWord} {i : Instr} (h : decode cw = .ok i) :
    opcOf cw = i.opc ∧ modOf cw = i.modifier := by
  rcases decode_cases cw with ⟨hd, -⟩ | ⟨j, hd, hopc, hmod, -⟩ | ⟨form, hd, hfields, -⟩
  · cases hd.symm.trans h
  · obtain ⟨hm, rfl⟩ := decodePlain_eq_ok_iff.mp (hd.symm.trans h)
    exact ⟨hopc.symm, hm.trans hmod.symm⟩
  · obtain ⟨w, signed, hm, rfl⟩ := decodeForms_ok (hd.symm.trans h)
    obtain ⟨hopc, hmod⟩ := hfields w signed
    exact ⟨hopc.symm, hm.trans hmod.symm⟩

theorem eq_encode_of_decode_ok {cw : CommandWord} {i : Instr} (h : decode cw = .ok i) : cw = encode i := by
  obtain ⟨hopc, hmod⟩ := fields_of_decode_ok h
  rw [← opcOf_append_modOf cw, hopc, hmod, encode]

/-- Settles O1: the fields of a word that decodes are its operation's, and they make up the word. -/
theorem commandWordsDecodeExactly : Obligations.CommandWordsDecodeExactly := fun _ i =>
  ⟨eq_encode_of_decode_ok, fun h => h ▸ decode_encode i⟩

/-! The words that select no operation -/

/-- A word is refused for its code exactly when no operation has that code. -/
theorem decode_eq_reservedOpcode_iff (cw : CommandWord) :
    decode cw = .error .reservedOpcode ↔ ∀ i : Instr, i.opc ≠ opcOf cw := by
  rcases decode_cases cw with ⟨hd, hno⟩ | ⟨i, hd, hopc, -⟩ | ⟨form, hd, hfields, -⟩
  · exact iff_of_true hd hno
  · exact iff_of_false (by simp [hd, decodePlain_eq_error_iff]) fun hno => hno i hopc
  · obtain ⟨hopc, -⟩ := hfields .one false
    exact iff_of_false (by simp [hd, decodeForms_eq_error_iff]) fun hno => hno _ hopc

/-- A word is refused for its modifier exactly when its code is assigned and its modifier is not allowed (R63, R64). -/
theorem decode_eq_reservedModifier_iff (cw : CommandWord) :
    decode cw = .error .reservedModifier ↔ decode cw ≠ .error .reservedOpcode ∧
      if opcOf cw ∈ ([0x70, 0x71, 0x72] : List Byte) then IllegalForm (modOf cw) else modOf cw ≠ 0 := by
  rcases decode_cases cw with ⟨hd, -⟩ | ⟨i, hd, -, -, hplain⟩ | ⟨form, hd, -, hform⟩
  · simp [hd]
  · rw [if_neg hplain]
    simp [hd, decodePlain_eq_error_iff]
  · rw [if_pos hform]
    simp [hd, decodeForms_eq_error_iff]

/-- The eight reserved ranges of R67. -/
abbrev ReservedRange (c : Byte) : Prop :=
  c ≤ 0x0F ∨ (0x17 ≤ c ∧ c ≤ 0x1F) ∨ (0x27 ≤ c ∧ c ≤ 0x2F) ∨ (0x37 ≤ c ∧ c ≤ 0x3F) ∨ (0x42 ≤ c ∧ c ≤ 0x4F) ∨
    (0x52 ≤ c ∧ c ≤ 0x5F) ∨ (0x63 ≤ c ∧ c ≤ 0x6F) ∨ 0x76 ≤ c

theorem Instr.opc_not_reserved (i : Instr) : ¬ ReservedRange i.opc := by cases i <;> decide

theorem reservedRange_or_opc : ∀ c : Byte, ReservedRange c ∨ ∃ i ∈ allInstrs, i.opc = c := by decide

theorem no_opc_iff_reservedRange (c : Byte) : (∀ i : Instr, i.opc ≠ c) ↔ ReservedRange c := by
  refine ⟨fun hno => (reservedRange_or_opc c).resolve_right fun ⟨i, _, hi⟩ => hno i hi, ?_⟩
  rintro hres i rfl
  exact Instr.opc_not_reserved i hres

/-- Settles O2: the ranges are what the operations' codes leave, and each modifier decoder refuses what R63 or R64 refuses. -/
theorem reservedWordsAreExactlyThese : Obligations.ReservedWordsAreExactlyThese := by
  intro cw
  refine ⟨(decode_eq_reservedOpcode_iff cw).trans (no_opc_iff_reservedRange _), ?_⟩
  rw [decode_eq_reservedModifier_iff, IllegalForm, modOf_extractLsb' cw (by decide), modOf_extractLsb' cw (by decide)]
  simp only [List.mem_cons, List.not_mem_nil, or_false]

/-- Settles O3, from the words of the opcode map. -/
theorem sampleWordsDecode : Obligations.SampleWordsDecode :=
  ⟨decode_crc8Clr, decode_crc16Blk, decode_crc32Tbl, decode_lenDec, decode_frmEncx, decode_frmChkl, decode_intWrapS32,
    decode_intPackU16, decode_intUnpackS8, decode_timeU2j⟩

end Sys2Proof.Machine

/-! ### The stream pseudo-operation (30_encoding.md R77; 40_crc_engines.md R103) -/

namespace Sys2Proof.Machine

/-! The engines' operations, stated once for an engine -/

/-- The parameters of an engine (00_scope.md R5). -/
def engineParams (cfg : Config) : (e : Engine) → CrcParams e.width
  | .crc8 => cfg.crc8
  | .crc16 => cfg.crc16
  | .crc32 => cfg.crc32

section Stream

variable {e : Engine} {s t u : State} {o : Response} {os : List Response} {rs : List Request} {i : Instr} {a b : Operand}
  {x : List Byte}

theorem exec_of_checked (harm : exec i s = .next (s.checked t)) (hfit : s.request.WellFormed s.cfg) : exec i s = .next t := by
  rw [harm, State.checked_of_fits hfit]

theorem exec_clr (hfit : s.request.WellFormed s.cfg) :
    exec e.clr s = .next ((s.setAcc e (engineParams s.cfg e).init).respond (crcResult (engineParams s.cfg e).init)) :=
  exec_of_checked (by cases e <;> rfl) hfit

theorem exec_ld (hfit : s.request.WellFormed s.cfg) :
    exec e.ld s = .next ((s.setAcc e (s.opLow e.width)).respond (crcResult (s.opLow e.width))) :=
  exec_of_checked (by cases e <;> rfl) hfit

theorem exec_blk (hfit : s.request.WellFormed s.cfg) :
    exec e.blk s = .next ((s.setAcc e (s.blockFed (engineParams s.cfg e) (s.acc e))).respond
      (crcResult (s.blockFed (engineParams s.cfg e) (s.acc e)))) :=
  exec_of_checked (by cases e <;> rfl) hfit

theorem exec_rd (hfit : s.request.WellFormed s.cfg) :
    exec e.rd s = .next (s.respond (crcResult (s.acc e ^^^ (engineParams s.cfg e).xorOut))) :=
  exec_of_checked (by cases e <;> rfl) hfit

theorem exec_calc (hfit : s.request.WellFormed s.cfg) :
    exec e.calc s = .next (s.respond (crcResult (crc (engineParams s.cfg e) s.opIn))) :=
  exec_of_checked (by cases e <;> rfl) hfit

/-! Requests of a run -/

/-- The request written for an operation is served by that operation (R62, R76). -/
theorem serve_requestFor (i : Instr) (a b : Operand) (x : List Byte) (s : State) :
    s.serve (requestFor i a b x) = exec i (s.present (requestFor i a b x) []) :=
  step_of_decode_ok (s := s.withHost [.request (requestFor i a b x)]) rfl (decode_encode i)

/-- One request more at the front of a run. -/
theorem observe_requestFor_cons (hexec : exec i (s.present (requestFor i a b x) []) = .next t) (ho : t.response = some o)
    (hrest : observe rs t = .next (os, u)) : observe (requestFor i a b x :: rs) s = .next (o :: os, u) := by
  rw [observe_cons ((serve_requestFor i a b x s).trans hexec) hrest, ho]
  rfl

theorem observe_calc (hfit : x.length ≤ s.cfg.maxBuf) :
    ∃ v, observe [requestFor e.calc 0 0 x] s = .next ([crcResult (crc (engineParams s.cfg e) x)], v) ∧ v.accs = s.accs :=
  ⟨_, observe_requestFor_cons (exec_calc hfit) rfl rfl, rfl⟩

/-- RD finishes the initial value fed with `x`, which is `crc_W(x)` (R103). -/
theorem observe_stream (hfit : x.length ≤ s.cfg.maxBuf) :
    ∃ o₁ o₂ u, observe (expandStream e x) s = .next ([o₁, o₂, crcResult (crc (engineParams s.cfg e) x)], u) := by
  refine ⟨_, _, _, observe_requestFor_cons (exec_clr (Nat.zero_le _)) rfl (observe_requestFor_cons (exec_blk ?_) rfl
    (observe_requestFor_cons (exec_rd (Nat.zero_le _)) ?_ rfl))⟩
  · simpa [requestFor] using hfit
  · simp [crc, State.blockFed, requestFor]

end Stream

/-- Settles O34: the two runs end with the one response, `crc_W(x)`. -/
theorem streamEqualsCalc : Obligations.StreamEqualsCalc := by
  intro e s x hfit
  obtain ⟨o₁, o₂, u, hstream⟩ := observe_stream (e := e) hfit
  obtain ⟨v, hcalc, hacc⟩ := observe_calc (e := e) hfit
  exact ⟨o₁, o₂, _, u, v, hstream, hcalc, rfl, hacc⟩

/-- Settles O23: `A[W-1:0]` as a bit field is the truncation that LD loads; at 32 bits it is the whole of `A`. -/
theorem loadTakesLowBits : Obligations.LoadTakesLowBits := by
  intro s hfit
  rw [low_field_eq, low_field_eq]
  have hwhole : s.opLow 32 = s.request.a := BitVec.setWidth_eq _
  have h32 := exec_ld (e := .crc32) hfit
  exact ⟨exec_ld (e := .crc8) hfit, exec_ld (e := .crc16) hfit, hwhole ▸ h32⟩

end Sys2Proof.Machine

/-! ### The command frames (42_frame_encode.md R150 to R155; 30_encoding.md R70, R73, R75) -/

namespace Sys2Proof.Machine

section Encode

variable {cfg : Config} {o i : Byte} {e : BitVec 16} {p : List Byte}

theorem frameEncoded_of_le (h : p.length ≤ 32767) : frameEncoded cfg o i e p =
    .done (BitVec.ofNat 64 (8 + (encLen p.length).length + p.length)) (e.setWidth 64) (commandFrame cfg o i p) := by
  have hfield := encLen_length_le p.length
  rw [frameEncoded, if_neg (show ¬ longLenMax < p.length from Nat.not_lt.mpr h), commandFrame_length, zext64_of_lt (by omega)]

theorem frameEncoded_of_gt (h : 32767 < p.length) : frameEncoded cfg o i e p = .raised .operandRange := if_pos h

theorem expectedReply_of_ne (h : e ≠ 0xFFFF) : expectedReply e = .concrete e.toNat := if_neg h

/-- A well-formed configuration bounds every legacy reply length (00_scope.md R5). -/
theorem replyLenOf_le (hcfg : cfg.WellFormed) (c : Byte) : cfg.replyLenOf c ≤ 65535 := by
  obtain ⟨-, -, hlegacy, -⟩ := hcfg
  obtain ⟨-, hmax, -⟩ := hlegacy c.toFin
  exact hmax

theorem zext64_replyLenOf (hcfg : cfg.WellFormed) (c : Byte) :
    zext64 (cfg.replyLenOf c) = BitVec.ofNat 64 (cfg.replyLenOf c) :=
  zext64_of_lt ((replyLenOf_le hcfg c).trans_lt (by decide))

end Encode

/-- Settles O41: FRM.ENCX answers `frameEncoded`, on each side of the limit of the length field. -/
theorem extendedFrameResult : Obligations.ExtendedFrameResult := by
  intro s hfit p body c
  have hexec : exec .frmEncx s = .next { s with response := some (frameEncoded s.cfg s.opByte s.opInner s.opExpected p) } :=
    exec_of_response rfl hfit
  refine ⟨fun hle => ?_, fun hle => ?_, fun hgt => ?_⟩
  · rw [hexec, frameEncoded_of_le hle]
    rfl
  · rw [frameEncoded_of_le hle] at hexec
    refine ⟨_, hexec, fun hun => ?_, fun hne => ?_⟩ <;> rw [Response.expected_done]
    · exact if_pos hun
    · exact expectedReply_of_ne hne
  · rw [hexec, frameEncoded_of_gt hgt]
    rfl

/-- Settles O44: a legacy reply length fits `R1`. -/
theorem probeFrameResult : Obligations.ProbeFrameResult := by
  intro s hcfg hfit c
  rw [exec_of_response (r := probeEncoded s.cfg c) rfl hfit, probeEncoded, zext64_replyLenOf hcfg]
  rfl

end Sys2Proof.Machine

/-! ### The legacy reply (43_frame_decode.md R166; 30_encoding.md R74) -/

namespace Sys2Proof.Machine

theorem legacyMagic_eq_ite (cfg : Config) (x : Arrangement) :
    cfg.legacyMagic x = if x = .a then cfg.legacyRxMagicA else cfg.legacyRxMagicB := by
  cases x <;> rfl

theorem arrangementCode_eq_ite (x : Arrangement) : arrangementCode x = if x = .a then 0 else 1 := by
  cases x <;> rfl

theorem slice_eq_drop_take (s : List Byte) (i j : Nat) : slice s i j = (s.take j).drop i := List.drop_take.symm

/-- Settles O53: `legacySplit` makes R166's checks in R166's order. -/
theorem legacyReplyResult : Obligations.LegacyReplyResult := by
  intro s hcfg hfit f c x m n r
  have hr : legacyChecked s.cfg c f = r := by
    simp only [legacyChecked, legacySplit, slice_eq_drop_take, List.drop_zero, legacyMagic_eq_ite, arrangementCode_eq_ite,
      zext64_replyLenOf hcfg, Bool.and_eq_true, decide_eq_true_eq]
    rfl
  rw [← hr]
  exact exec_of_response rfl hfit

end Sys2Proof.Machine

/-! ### The reply frames (43_frame_decode.md R160 to R162; 30_encoding.md R72) -/

namespace Sys2Proof.Machine

/-! The length field in front of other bytes -/

/-- Bytes after a length field are not read (R141). -/
theorem decLen_append {s t : List Byte} {r : Nat × Nat} (h : decLen s = some r) : decLen (s ++ t) = some r := by
  match s with
  | [] => cases h
  | [b] =>
    by_cases hb : b.msb
    · simp [decLen, hb] at h
    · simpa [decLen, hb] using h
  | b :: b' :: s => exact h

theorem decLen_bounds {s : List Byte} {l k : Nat} (h : decLen s = some (l, k)) : (k = 1 ∨ k = 2) ∧ l < 2 ^ 15 := by
  obtain ⟨l', k', h', hk, hl⟩ := decLen_of_two_le (s := s ++ [0, 0]) (by simp)
  cases h'.symm.trans (decLen_append h)
  exact ⟨hk, hl⟩

/-! The trailer and the packed result -/

/-- A byte string with its own CRC16 behind it, the high byte first, has a correct trailer (R161). -/
theorem hasCorrectTrailer_append (cfg : Config) (h : List Byte) :
    hasCorrectTrailer cfg (h ++ be16 (crc cfg.crc16 h)) = true := by
  simp [hasCorrectTrailer, byteAt, be16, word16_be16]

theorem or_mul_two_pow_eq_add {a n : Nat} (b : Nat) (h : a < 2 ^ n) : a ||| b * 2 ^ n = a + 2 ^ n * b := by
  rw [Nat.mul_comm, Nat.or_comm, ← Nat.two_pow_add_eq_or_of_lt h, Nat.add_comm]

/-- The fields packed in `R1` do not overlap, so that packing them is a sum (R162). -/
theorem pack_eq_add (c i : Byte) {k : Nat} (hk : k ≤ 2) :
    c.setWidth 64 ||| i.setWidth 64 <<< 8 ||| BitVec.ofNat 64 k <<< 16 =
      BitVec.ofNat 64 (c.toNat + 2 ^ 8 * i.toNat + 2 ^ 16 * k) := by
  have hc := c.isLt
  have hi := i.isLt
  apply BitVec.eq_of_toNat_eq
  simp (disch := omega) only [BitVec.toNat_or, BitVec.toNat_shiftLeft, BitVec.toNat_setWidth, BitVec.toNat_ofNat,
    Nat.shiftLeft_eq, Nat.mod_eq_of_lt, or_mul_two_pow_eq_add]

theorem byteAt_append_cons {s : List Byte} {n : Nat} (h : s.length = n) (b : Byte) (t : List Byte) :
    byteAt (s ++ b :: t) n = b := by
  simp [byteAt, ← h]

/-! Frames laid out as R72 says -/

/-- The length field and the inner command, in the configured order (R72). -/
def replyMiddle (cfg : Config) (field : List Byte) (inner : Byte) : List Byte :=
  match cfg.rxLayout with
  | .lenThenInner => field ++ [inner]
  | .innerThenLen => inner :: field

/-- A reply before its trailer (R72). -/
def replyHead (cfg : Config) (field : List Byte) (inner : Byte) (body : List Byte) : List Byte :=
  cfg.rxMagic.toList ++ [cfg.rxExtCmd] ++ replyMiddle cfg field inner ++ body

/-- A reply with its trailer, the CRC16 of all before it, the high byte first (R72). -/
def replyFrame (cfg : Config) (field : List Byte) (inner : Byte) (body : List Byte) : List Byte :=
  replyHead cfg field inner body ++ be16 (crc cfg.crc16 (replyHead cfg field inner body))

section Layout

variable {cfg : Config} {field body t : List Byte} {inner : Byte}

theorem replyMiddle_length : (replyMiddle cfg field inner).length = field.length + 1 := by
  unfold replyMiddle
  split <;> simp

theorem replyHead_length : (replyHead cfg field inner body).length = 4 + field.length + body.length := by
  simp [replyHead, replyMiddle_length]
  omega

theorem replyHead_magic : slice (replyHead cfg field inner body ++ t) 0 2 = cfg.rxMagic.toList := by
  simp [replyHead, List.append_assoc, List.take_left']

theorem replyHead_cmd : byteAt (replyHead cfg field inner body ++ t) 2 = cfg.rxExtCmd := by
  simp [replyHead, byteAt]

theorem replyHead_field : ∃ rest, slice (replyHead cfg field inner body ++ t) (lenOff cfg)
    (replyHead cfg field inner body ++ t).length = field ++ rest := by
  rw [slice_to_end]
  cases hl : cfg.rxLayout
  · exact ⟨inner :: (body ++ t), by simp [lenOff, replyHead, replyMiddle, hl, List.drop_append]⟩
  · exact ⟨body ++ t, by simp [lenOff, replyHead, replyMiddle, hl, List.drop_append]⟩

theorem replyHead_inner : byteAt (replyHead cfg field inner body ++ t) (innerOff cfg field.length) = inner := by
  obtain ⟨front, rest, hsplit, hpos⟩ : ∃ front rest, replyHead cfg field inner body ++ t = front ++ inner :: rest ∧
      front.length = innerOff cfg field.length := by
    cases hl : cfg.rxLayout
    · exact ⟨cfg.rxMagic.toList ++ [cfg.rxExtCmd] ++ field, body ++ t, by simp [replyHead, replyMiddle, hl],
        by simp [innerOff, hl]; omega⟩
    · exact ⟨cfg.rxMagic.toList ++ [cfg.rxExtCmd], field ++ body ++ t, by simp [replyHead, replyMiddle, hl],
        by simp [innerOff, hl]⟩
  rw [hsplit, byteAt_append_cons hpos]

theorem replyHead_body (ht : t.length = 2) : slice (replyHead cfg field inner body ++ t) (bodyOff field.length)
    ((replyHead cfg field inner body ++ t).length - 2) = body := by
  have hfront : (cfg.rxMagic.toList ++ [cfg.rxExtCmd] ++ replyMiddle cfg field inner).length = bodyOff field.length := by
    simp [bodyOff, replyMiddle_length]
    omega
  have hend : (replyHead cfg field inner body ++ t).length - 2 = (replyHead cfg field inner body).length := by simp [ht]
  rw [slice_eq_drop_take, hend, List.take_left, replyHead, List.drop_left' hfront]

theorem replyFrame_length : (replyFrame cfg field inner body).length = 6 + field.length + body.length := by
  rw [replyFrame, List.length_append, replyHead_length, be16_length]
  omega

/-- FRM.CHKX on a frame laid out as R72 says, whose declared total matches if the length is checked (R162). -/
theorem replyChecked_replyFrame {l : Nat} (hfield : decLen field = some (l, field.length))
    (htotal : cfg.rxStrictLength = true → declaredTotal cfg l field.length = (replyFrame cfg field inner body).length) :
    replyChecked cfg (replyFrame cfg field inner body) =
      .done (BitVec.ofNat 64 l) (BitVec.ofNat 64 (cfg.rxExtCmd.toNat + 2 ^ 8 * inner.toNat + 2 ^ 16 * field.length)) body := by
  obtain ⟨hk, hl⟩ := decLen_bounds hfield
  have hlen := replyFrame_length (cfg := cfg) (field := field) (inner := inner) (body := body)
  have htrailer := hasCorrectTrailer_append cfg (replyHead cfg field inner body)
  unfold replyFrame at hlen htotal ⊢
  generalize ht : be16 (crc cfg.crc16 (replyHead cfg field inner body)) = t at hlen htotal htrailer ⊢
  have htlen : t.length = 2 := ht ▸ be16_length _
  obtain ⟨rest, hrest⟩ := replyHead_field (cfg := cfg) (field := field) (body := body) (t := t) (inner := inner)
  have hstrict : ¬ (cfg.rxStrictLength && declaredTotal cfg l field.length !=
      (replyHead cfg field inner body ++ t).length) = true := by
    simpa using htotal
  have hsplit : replyChecked cfg (replyHead cfg field inner body ++ t) =
      replySplit cfg (replyHead cfg field inner body ++ t) l field.length := by
    rw [replyChecked, if_neg (by omega), if_neg (not_not_intro replyHead_magic), if_neg (not_not_intro replyHead_cmd),
      if_neg (by simp [htrailer]), hrest, decLen_append hfield]
  rw [hsplit, replySplit, if_neg (by omega), if_neg hstrict, zext64_of_lt (by omega), replySummary, replyHead_cmd,
    replyHead_inner, replyHead_body htlen, pack_eq_add _ _ (by omega)]

end Layout

/-- Settles O45: the frame is a `replyFrame` in the layout of the configuration. -/
theorem wellBuiltReplyIsSplit : Obligations.WellBuiltReplyIsSplit := by
  intro s field l inner body hfit hfield head hin htotal
  have hframe : s.request.in0 = replyFrame s.cfg field inner body := hin
  rw [hframe] at htotal
  rw [exec_of_response (r := replyChecked s.cfg s.request.in0) rfl hfit, hframe, replyChecked_replyFrame hfield htotal,
    Response.done]

end Sys2Proof.Machine

/-! ### The loop of a CRC engine (40_crc_engines.md R101, R102, R104) -/

namespace Sys2Proof.Machine

section Loop

variable {w : Nat} {poly : BitVec w}

/-- Turns that shift out only zeros never meet the polynomial. -/
theorem crcShifts_of_high_zero {n : Nat} {r : BitVec w} (hzero : ∀ j < n, r.getMsbD j = false) :
    crcShifts poly n r = r <<< n := by
  induction n generalizing r with
  | zero => simp [crcShifts]
  | succ n ih =>
    have hturn : crcShift poly r = r <<< 1 := if_neg (by simpa [BitVec.msb] using hzero 0 n.succ_pos)
    have hrest : ∀ j < n, (r <<< 1).getMsbD j = false := fun j hj => by
      simpa using hzero (j + 1) (Nat.succ_lt_succ hj)
    rw [crcShifts, hturn, ih hrest, ← BitVec.shiftLeft_add, Nat.add_comm]

/-- Turns that bring a value shifted right back to where it was. -/
theorem crcShifts_ushiftRight {n : Nat} (x : BitVec w) : crcShifts poly n (x >>> n) = x >>> n <<< n :=
  crcShifts_of_high_zero fun j hj => by simp [BitVec.getMsbD_ushiftRight, hj]

/-- A register is its `n` high bits and the bits below them. -/
theorem low_xor_high {n : Nat} (hn : n ≤ w) (x : BitVec w) : x <<< n >>> n ^^^ x >>> (w - n) <<< (w - n) = x := by
  apply BitVec.eq_of_getLsbD_eq
  intro i hi
  by_cases hlow : i < w - n
  · have : n + i < w := by omega
    simp [hlow, hi, this]
  · have : ¬ n + i < w := by omega
    have : w - n + (i - (w - n)) = i := by omega
    simp [*]

/-- `n` turns treat the `n` bits they shift out apart from the others, which they only shift. -/
theorem crcShifts_split {n : Nat} (hn : n ≤ w) (x : BitVec w) :
    crcShifts poly n x = x <<< n ^^^ crcShifts poly n (x >>> (w - n) <<< (w - n)) := by
  have hlow : crcShifts poly n (x <<< n >>> n) = x <<< n := by
    rw [crcShifts_ushiftRight]
    apply BitVec.eq_of_getLsbD_eq
    intro i hi
    by_cases hin : i < n
    · simp [hin]
    · have : n + (i - n) = i := by omega
      simp [*]
  conv_lhs => rw [← low_xor_high hn x, crcShifts_xor, hlow]

theorem crcTable_xor (i j : Byte) : crcTable poly (i ^^^ j) = crcTable poly i ^^^ crcTable poly j := by
  rw [crcTable, BitVec.setWidth_xor, BitVec.shiftLeft_xor_distrib, crcShifts_xor, crcTable, crcTable]

@[simp] theorem crcTable_zero : crcTable poly 0 = 0 := by
  simp [crcTable]

/-- The `1` at the bottom of the index byte reaches the top of the register in 7 turns; the eighth shifts it out (R101). -/
theorem crcTable_one (hw : 8 ≤ w) : crcTable poly 1 = poly := by
  have hindex : (1 : Byte).setWidth w = 1#w := BitVec.eq_of_toNat_eq (by simp)
  have hseven : crcShifts poly 7 (1#w <<< (w - 8)) = 1#w <<< (w - 1) := by
    rw [crcShifts_of_high_zero (fun j hj => by simp; omega), ← BitVec.shiftLeft_add]
    congr 1
    omega
  have hmsb : (1#w <<< (w - 1)).msb = true := by
    simp [BitVec.msb]
    omega
  have hout : 1#w <<< (w - 1) <<< 1 = 0#w := by
    rw [← BitVec.shiftLeft_add]
    exact BitVec.shiftLeft_eq_zero (by omega)
  rw [crcTable, hindex, crcShifts_add poly 7 1, hseven]
  simp [crcShifts, crcShift, hmsb, hout]

/-- R104, for every width the engine structure can have. -/
theorem crcStep_eq_loop (hw : 8 ≤ w) (acc : BitVec w) (b : Byte) :
    crcStep poly acc b = crcShifts poly 8 (acc ^^^ b.setWidth w <<< (w - 8)) := by
  have htop : ((acc >>> (w - 8)).setWidth 8).setWidth w = acc >>> (w - 8) := by
    apply BitVec.eq_of_getLsbD_eq
    intro i hi
    by_cases h8 : i < 8
    · simp [h8, hi]
    · have hout : w ≤ w - 8 + i := by omega
      simp [h8, BitVec.getLsbD_of_ge _ _ hout]
  rw [crcShifts_xor, crcShifts_split hw acc, crcStep, crcTable_xor, crcTable, htop, crcTable, BitVec.xor_assoc]

/-- R104 at the width of the trailer. -/
theorem crcStep_sixteen {poly : BitVec 16} (acc : BitVec 16) (b : Byte) :
    crcStep poly acc b = crcShifts poly 8 (acc ^^^ b.setWidth 16 <<< 8) :=
  crcStep_eq_loop (by decide) acc b

end Loop

end Sys2Proof.Machine

/-! ### CLR, UPD, BLK, CALC and TBL (40_crc_engines.md R110 to R130) -/

namespace Sys2Proof.Machine

theorem byte_fits_width : ∀ w ∈ [8, 16, 32], 8 ≤ w := by decide

/-- Settles O30: the three widths have room for a byte. -/
theorem tableStepEqualsBitwiseLoop : Obligations.TableStepEqualsBitwiseLoop := by
  intro w hw poly acc b
  exact crcStep_eq_loop (byte_fits_width w hw) acc b

/-- Settles O31: the three widths have room for a byte. -/
theorem tableEntriesZeroAndOne : Obligations.TableEntriesZeroAndOne := by
  intro w hw poly
  exact ⟨crcTable_zero, crcTable_one (byte_fits_width w hw)⟩

section Results

variable {s : State} {e : Engine} {a : Operand}

theorem exec_upd (hfit : s.request.WellFormed s.cfg) :
    exec e.upd s = .next ((s.setAcc e (crcStep (engineParams s.cfg e).poly (s.acc e) s.opByte)).respond
      (crcResult (crcStep (engineParams s.cfg e).poly (s.acc e) s.opByte))) :=
  exec_of_checked (by cases e <;> rfl) hfit

theorem blockFed_eq_foldl {w : Nat} (p : CrcParams w) (acc : BitVec w) :
    s.blockFed p acc = s.request.in0.foldl (crcStep p.poly) acc :=
  crcFeed_eq_foldl _ _ _

theorem crc_eq_foldl {w : Nat} (p : CrcParams w) (x : List Byte) :
    crc p x = x.foldl (crcStep p.poly) p.init ^^^ p.xorOut := by
  rw [crc, crcFeed_eq_foldl]

theorem tableRead_of_le {w : Nat} {p : CrcParams w} (h : a.toNat ≤ 255) :
    tableRead p a = crcResult (crcTable p.poly (a.extractLsb' 0 8)) := by
  rw [tableRead, if_neg (Nat.not_lt.mpr h), low_field_eq]

theorem tableRead_of_gt {w : Nat} {p : CrcParams w} (h : 255 < a.toNat) : tableRead p a = .raised .operandRange := if_pos h

end Results

/-- Settles O22, from the arms of CLR. -/
theorem clearLoadsInitialValue : Obligations.ClearLoadsInitialValue := fun _ hfit =>
  ⟨exec_clr (e := .crc8) hfit, exec_clr (e := .crc16) hfit, exec_clr (e := .crc32) hfit⟩

/-- Settles O24: UPD is a table-driven step, which is the bitwise loop (R104). -/
theorem updateIsTheBitwiseLoop : Obligations.UpdateIsTheBitwiseLoop := by
  intro s hfit b x y z
  have hx : crcStep s.cfg.crc8.poly s.acc8 b = x := by
    simpa using crcStep_eq_loop (poly := s.cfg.crc8.poly) (Nat.le_refl 8) s.acc8 b
  have hy : crcStep s.cfg.crc16.poly s.acc16 b = y := crcStep_eq_loop (by decide) _ _
  have hz : crcStep s.cfg.crc32.poly s.acc32 b = z := crcStep_eq_loop (by decide) _ _
  rw [← hx, ← hy, ← hz]
  exact ⟨exec_upd (e := .crc8) hfit, exec_upd (e := .crc16) hfit, exec_upd (e := .crc32) hfit⟩

/-- Settles O25: at 8 bits the shifted accumulator is gone, and the top byte of each accumulator is a bit field. -/
theorem updateIsOneTableStep : Obligations.UpdateIsOneTableStep := by
  intro s hfit b
  rw [field_eq_shift, field_eq_shift]
  refine ⟨⟨_, exec_upd (e := .crc8) hfit, ?_⟩, ⟨_, exec_upd (e := .crc16) hfit, rfl⟩,
    ⟨_, exec_upd (e := .crc32) hfit, rfl⟩⟩
  have h8 : s.acc8 <<< 8 = 0#8 := BitVec.shiftLeft_eq_zero (Nat.le_refl 8)
  change s.acc8 <<< 8 ^^^ crcTable s.cfg.crc8.poly ((s.acc8 >>> 0).setWidth 8 ^^^ b) = _
  rw [h8, BitVec.zero_xor, BitVec.ushiftRight_zero, BitVec.setWidth_eq]

/-- Settles O26: feeding `IN0` is a fold of the step. -/
theorem blockFeedsEveryByte : Obligations.BlockFeedsEveryByte := by
  intro s hfit x y z
  simp only [x, y, z, ← blockFed_eq_foldl]
  exact ⟨exec_blk (e := .crc8) hfit, exec_blk (e := .crc16) hfit, exec_blk (e := .crc32) hfit⟩

/-- Settles O28: `crc_W` is that fold from the initial value, with the final exclusive-or. -/
theorem calcIsOneShot : Obligations.CalcIsOneShot := by
  intro s hfit x y z
  simp only [x, y, z, ← crc_eq_foldl]
  exact ⟨exec_calc (e := .crc8) hfit, exec_calc (e := .crc16) hfit, exec_calc (e := .crc32) hfit⟩

/-- Settles O29, on each side of the last index. -/
theorem tableReadChecksIndex : Obligations.TableReadChecksIndex := by
  intro s hfit i
  have h8 := exec_of_response (i := .crc8Tbl) (r := tableRead s.cfg.crc8 s.request.a) rfl hfit
  have h16 := exec_of_response (i := .crc16Tbl) (r := tableRead s.cfg.crc16 s.request.a) rfl hfit
  have h32 := exec_of_response (i := .crc32Tbl) (r := tableRead s.cfg.crc32 s.request.a) rfl hfit
  refine ⟨fun hle => ?_, fun hgt => ?_⟩
  · rw [h8, h16, h32, tableRead_of_le hle, tableRead_of_le hle, tableRead_of_le hle]
    exact ⟨rfl, rfl, rfl⟩
  · rw [h8, h16, h32, tableRead_of_gt hgt, tableRead_of_gt hgt, tableRead_of_gt hgt]
    exact ⟨rfl, rfl, rfl⟩

end Sys2Proof.Machine

/-! ### Runs of BLK and UPD (40_crc_engines.md R112, R113 and the same rules of the wider engines) -/

namespace Sys2Proof.Machine

section BlockRuns

variable {s t u : State} {e : Engine} {x y : List Byte}

/-- The accumulator of an engine after the bytes of `x` (R103). -/
def State.fed (s : State) (e : Engine) (x : List Byte) : BitVec e.width := crcFeed (engineParams s.cfg e).poly (s.acc e) x

/-- `t` has the configuration and the accumulators of `s` with the bytes of `x` fed to an engine. -/
def State.FedTo (s : State) (e : Engine) (x : List Byte) (t : State) : Prop :=
  t.cfg = s.cfg ∧ t.accs = (s.setAcc e (s.fed e x)).accs

theorem State.acc_of_accs {v : BitVec e.width} (h : t.accs = (s.setAcc e v).accs) : t.acc e = v := by
  cases e <;> simp_all [State.accs, State.acc, State.setAcc]

theorem State.accs_setAcc {v : BitVec e.width} (h : t.accs = (s.setAcc e v).accs) (v' : BitVec e.width) :
    (t.setAcc e v').accs = (s.setAcc e v').accs := by
  cases e <;> simp_all [State.accs, State.setAcc]

theorem State.FedTo.nil (s : State) (e : Engine) : s.FedTo e [] s := ⟨rfl, by simp [State.fed]⟩

theorem State.FedTo.fed_append (h : s.FedTo e x t) : t.fed e y = s.fed e (x ++ y) := by
  obtain ⟨hcfg, hacc⟩ := h
  rw [State.fed, hcfg, State.acc_of_accs hacc, State.fed, State.fed, crcFeed_append]

theorem State.FedTo.trans (hx : s.FedTo e x t) (hy : t.FedTo e y u) : s.FedTo e (x ++ y) u := by
  have happend : t.fed e y = s.fed e (x ++ y) := hx.fed_append
  obtain ⟨hcfg, hacc⟩ := hx
  obtain ⟨hcfg', hacc'⟩ := hy
  exact ⟨hcfg'.trans hcfg, by rw [hacc', State.accs_setAcc hacc, happend]⟩

theorem State.FedTo.accs_eq (ht : s.FedTo e x t) (hu : s.FedTo e x u) : t.accs = u.accs := by
  obtain ⟨-, ht⟩ := ht
  obtain ⟨-, hu⟩ := hu
  rw [ht, hu]

theorem State.fedTo_served (s : State) (e : Engine) (x : List Byte) (r : Request) (o : Response) :
    s.FedTo e x (((s.present r []).setAcc e (s.fed e x)).respond o) :=
  ⟨by simp, by cases e <;> rfl⟩

theorem exec_blk_fed (hfit : x.length ≤ s.cfg.maxBuf) :
    ∃ t, exec e.blk (s.present (requestFor e.blk 0 0 x) []) = .next t ∧ t.response = some (crcResult (s.fed e x)) ∧
      s.FedTo e x t := by
  have hfed : (s.present (requestFor e.blk 0 0 x) []).blockFed (engineParams s.cfg e)
      ((s.present (requestFor e.blk 0 0 x) []).acc e) = s.fed e x := by
    simp [State.blockFed, State.fed, requestFor]
  have harm := exec_blk (e := e) (s := s.present (requestFor e.blk 0 0 x) []) hfit
  rw [State.present_cfg, hfed] at harm
  exact ⟨_, harm, rfl, s.fedTo_served e x _ _⟩

/-- The data byte of UPD is the low byte of `A`, whatever stands above it. -/
theorem exec_upd_fed (b : Byte) :
    ∃ t o, exec e.upd (s.present (requestFor e.upd (b.setWidth 32) 0 []) []) = .next t ∧ t.response = some o ∧
      s.FedTo e [b] t := by
  have hbyte : (s.present (requestFor e.upd (b.setWidth 32) 0 []) []).opByte = b := by
    simp [State.opByte, requestFor, low_field_eq]
  have hfed : crcStep (engineParams s.cfg e).poly ((s.present (requestFor e.upd (b.setWidth 32) 0 []) []).acc e) b =
      s.fed e [b] := by
    simp [State.fed]
  have harm := exec_upd (e := e) (s := s.present (requestFor e.upd (b.setWidth 32) 0 []) []) (Nat.zero_le _)
  rw [State.present_cfg, hbyte, hfed] at harm
  exact ⟨_, _, harm, rfl, s.fedTo_served e [b] _ _⟩

theorem observe_blk (hfit : x.length ≤ s.cfg.maxBuf) :
    ∃ u, observe [requestFor e.blk 0 0 x] s = .next ([crcResult (s.fed e x)], u) ∧ s.FedTo e x u := by
  obtain ⟨u, hexec, ho, hu⟩ := exec_blk_fed (e := e) hfit
  exact ⟨u, observe_requestFor_cons hexec ho rfl, hu⟩

theorem observe_upds (s : State) (e : Engine) (x : List Byte) :
    ∃ os u, observe (x.map fun b => requestFor e.upd (b.setWidth 32) 0 []) s = .next (os, u) ∧ s.FedTo e x u := by
  induction x generalizing s with
  | nil => exact ⟨[], s, rfl, .nil s e⟩
  | cons b x ih =>
    obtain ⟨t, o, hexec, ho, ht⟩ := exec_upd_fed (s := s) (e := e) b
    obtain ⟨os, u, hrest, hu⟩ := ih t
    exact ⟨o :: os, u, observe_requestFor_cons hexec ho hrest, ht.trans hu⟩

end BlockRuns

/-- Settles O32: feeding `x` and then `y` is feeding `x ++ y`. -/
theorem blocksConcatenate : Obligations.BlocksConcatenate := by
  intro e s x y hfit
  have hlen : x.length + y.length ≤ s.cfg.maxBuf := List.length_append ▸ hfit
  obtain ⟨t, hexec, ho, ht⟩ := exec_blk_fed (s := s) (e := e) (x := x) (by omega)
  have hcfg : t.cfg = s.cfg := ht.1
  obtain ⟨u, hlast, hu⟩ := observe_blk (s := t) (e := e) (x := y) (by rw [hcfg]; omega)
  obtain ⟨v, hwhole, hv⟩ := observe_blk (e := e) hfit
  rw [ht.fed_append] at hlast
  exact ⟨_, _, u, v, observe_requestFor_cons hexec ho hlast, hwhole, (ht.trans hu).accs_eq hv⟩

/-- Settles O33, by induction on the bytes: each UPD feeds one. -/
theorem blockEqualsUpdates : Obligations.BlockEqualsUpdates := by
  intro e s x hfit
  obtain ⟨os, u, hupds, hu⟩ := observe_upds s e x
  obtain ⟨v, hblk, hv⟩ := observe_blk (e := e) hfit
  exact ⟨os, _, u, v, hupds, hblk, hu.accs_eq hv⟩

end Sys2Proof.Machine

/-! ### What the trailer detects (40_crc_engines.md R105, R106; 43_frame_decode.md R161) -/

namespace Sys2Proof.Machine

/-! A polynomial with a low term loses nothing: every turn of the loop can be undone -/

section Injective

variable {w : Nat} {poly : BitVec w}

/-- The low bit after a turn tells whether the polynomial went in, since the shift leaves it 0. -/
theorem eq_zero_of_crcShift_eq_zero (hodd : poly.getLsbD 0 = true) {r : BitVec w} (h : crcShift poly r = 0#w) :
    r = 0#w := by
  have hw : 0 < w := Nat.pos_of_ne_zero fun h0 => by subst h0; simp at hodd
  unfold crcShift at h
  split at h
  case isTrue =>
    have hlow := congrArg (·.getLsbD 0) h
    rw [BitVec.getLsbD_xor, hodd] at hlow
    simp at hlow
  case isFalse hmsb =>
    apply BitVec.eq_of_getMsbD_eq
    intro i hi
    cases i with
    | zero => simpa [BitVec.msb] using hmsb
    | succ i => simpa using congrArg (·.getMsbD i) h

theorem crcShifts_eq_zero_iff (hodd : poly.getLsbD 0 = true) (n : Nat) (r : BitVec w) :
    crcShifts poly n r = 0#w ↔ r = 0#w := by
  refine ⟨fun h => ?_, fun h => h ▸ crcShifts_zero poly n⟩
  induction n generalizing r with
  | zero => exact h
  | succ n ih => exact eq_zero_of_crcShift_eq_zero hodd (ih _ h)

theorem crcShifts_injective (hodd : poly.getLsbD 0 = true) (n : Nat) : Function.Injective (crcShifts poly n) := by
  intro x y h
  rw [← BitVec.xor_eq_zero_iff, ← crcShifts_xor, crcShifts_eq_zero_iff hodd] at h
  exact BitVec.xor_eq_zero_iff.mp h

/-- Two registers that differ still differ after the same bytes. -/
theorem crcFeed_injective (hodd : poly.getLsbD 0 = true) (hw : 8 ≤ w) (s : List Byte) :
    Function.Injective fun acc => crcFeed poly acc s := by
  induction s with
  | nil => exact Function.injective_id
  | cons b s ih =>
    intro x y h
    have hstep : crcStep poly x b = crcStep poly y b := ih h
    rw [crcStep_eq_loop hw, crcStep_eq_loop hw] at hstep
    exact (BitVec.xor_left_inj _).mp (crcShifts_injective hodd 8 hstep)

end Injective

/-! An error runs through the loop on its own, apart from the bytes it damages -/

section Errors

variable {w : Nat} {poly : BitVec w}

/-- `s` damaged by the error `e`, byte by byte. -/
def damaged (s e : List Byte) : List Byte := List.zipWith (· ^^^ ·) s e

theorem crcStep_xor (hw : 8 ≤ w) (acc err : BitVec w) (a b : Byte) :
    crcStep poly (acc ^^^ err) (a ^^^ b) = crcStep poly acc a ^^^ crcStep poly err b := by
  rw [crcStep_eq_loop hw, crcStep_eq_loop hw, crcStep_eq_loop hw, ← crcShifts_xor, BitVec.setWidth_xor,
    BitVec.shiftLeft_xor_distrib, BitVec.xor_assoc, BitVec.xor_assoc, xor_swap err]

theorem crcFeed_damaged (hw : 8 ≤ w) {s e : List Byte} (hlen : s.length = e.length) (acc err : BitVec w) :
    crcFeed poly (acc ^^^ err) (damaged s e) = crcFeed poly acc s ^^^ crcFeed poly err e := by
  induction s generalizing e acc err with
  | nil => cases List.length_eq_zero_iff.mp hlen.symm; rfl
  | cons a s ih =>
    cases e with
    | nil => cases hlen
    | cons b e =>
      rw [damaged, List.zipWith_cons_cons, crcFeed_cons, crcStep_xor hw, ← damaged, ih (Nat.succ.inj hlen), crcFeed_cons,
        crcFeed_cons]

end Errors

/-! The trailer of CRC16 -/

section Trailer

variable {poly : BitVec 16} {cfg : Config} {f : List Byte}

/-- The two bytes of a word, the high one first, run through the loop as the word does. -/
theorem crcFeed_be16 (acc v : BitVec 16) : crcFeed poly acc (be16 v) = crcShifts poly 16 (acc ^^^ v) := by
  have hlow : ((v.extractLsb' 0 8).setWidth 16) <<< 8 = crcShifts poly 8 ((v.extractLsb' 0 8).setWidth 16) := by
    refine (crcShifts_of_high_zero fun j hj => ?_).symm
    simp
    omega
  have hword : (v.extractLsb' 8 8).setWidth 16 <<< 8 ^^^ (v.extractLsb' 0 8).setWidth 16 = v := by
    apply BitVec.eq_of_getLsbD_eq
    intro i hi
    by_cases h8 : i < 8
    · simp [h8, hi]
    · have hhigh : i - 8 < 8 := by omega
      have hback : 8 + (i - 8) = i := by omega
      simp [h8, hi, hhigh, hback]
  rw [be16, crcFeed_cons, crcFeed_cons, crcFeed_nil, crcStep_sixteen, crcStep_sixteen, hlow, ← crcShifts_xor,
    ← crcShifts_add poly 8 8, BitVec.xor_assoc, hword]

theorem exists_append_be16 (h : 2 ≤ f.length) : ∃ m v, f = m ++ be16 v := by
  obtain ⟨hi, lo, hlast⟩ := List.length_eq_two.mp (show (f.drop (f.length - 2)).length = 2 by simp; omega)
  refine ⟨f.take (f.length - 2), hi ++ lo, ?_⟩
  rw [be16, BitVec.extractLsb'_append_eq_left, BitVec.extractLsb'_append_eq_right, ← hlast, List.take_append_drop]

theorem hasCorrectTrailer_append_be16 (m : List Byte) (v : BitVec 16) :
    hasCorrectTrailer cfg (m ++ be16 v) = (crc cfg.crc16 m == v) := by
  simp [hasCorrectTrailer, byteAt, be16, word16_be16]

theorem crc_append_be16 {p : CrcParams 16} (hp : p.xorOut = 0) (m : List Byte) (v : BitVec 16) :
    crc p (m ++ be16 v) = crcShifts p.poly 16 (crc p m ^^^ v) := by
  simp [crc, hp, crcFeed_append, crcFeed_be16]

/-- R105: a correct trailer is a zero residue, when no final exclusive-or hides it and the polynomial has a low term. -/
theorem hasCorrectTrailer_iff (hp : cfg.crc16.xorOut = 0) (hodd : cfg.crc16.poly.getLsbD 0 = true) (hf : 2 ≤ f.length) :
    hasCorrectTrailer cfg f = true ↔ crc cfg.crc16 f = 0 := by
  obtain ⟨m, v, rfl⟩ := exists_append_be16 hf
  rw [hasCorrectTrailer_append_be16, crc_append_be16 hp, beq_iff_eq]
  exact BitVec.xor_eq_zero_iff.symm.trans (crcShifts_eq_zero_iff hodd 16 _).symm

/-- An error that alone leaves the register at a value other than 0 damages the trailer, wherever it falls. -/
theorem hasCorrectTrailer_damaged {pre s e post : List Byte} (hp : cfg.crc16.xorOut = 0)
    (hodd : cfg.crc16.poly.getLsbD 0 = true) (hf : 2 ≤ (pre ++ s ++ post).length) (hlen : s.length = e.length)
    (he : crcFeed cfg.crc16.poly 0#16 e ≠ 0#16) (hok : hasCorrectTrailer cfg (pre ++ s ++ post) = true) :
    hasCorrectTrailer cfg (pre ++ damaged s e ++ post) = false := by
  have hf' : 2 ≤ (pre ++ damaged s e ++ post).length := by
    simpa [damaged, hlen] using hf
  rw [Bool.eq_false_iff, Ne, hasCorrectTrailer_iff hp hodd hf']
  rw [hasCorrectTrailer_iff hp hodd hf] at hok
  intro hbad
  have hsame := hok.trans hbad.symm
  simp only [crc, crcFeed_append, BitVec.xor_left_inj] at hsame
  have hmid := crcFeed_injective hodd (by decide) post hsame
  have hsplit := crcFeed_damaged (poly := cfg.crc16.poly) (by decide) hlen (crcFeed cfg.crc16.poly cfg.crc16.init pre) 0#16
  rw [BitVec.xor_zero, ← hmid] at hsplit
  exact he ((BitVec.xor_right_inj _).mp (BitVec.xor_zero.trans hsplit)).symm

end Trailer

section Bursts

variable {poly v : BitVec 16} {k : Nat}

/-- The high bits of `v` from the bottom of the register, and the rest once they are out of the way: as `v` in one go. -/
theorem crcShifts_high_xor_low {w m j : Nat} {poly : BitVec w} (hw : m + j = w) (v : BitVec w) :
    crcShifts poly (j + m) (v >>> j) ^^^ v <<< m = crcShifts poly m v := by
  have hj : w - m = j := by omega
  rw [crcShifts_add, crcShifts_ushiftRight, crcShifts_split (n := m) (by omega) v, hj, BitVec.xor_comm]

/-- The burst `v` of R106, `k` places above the end of three bytes. -/
def burst (v : BitVec 16) (k : Nat) : List Byte :=
  [(v.setWidth 24 <<< k).extractLsb' 16 8, (v.setWidth 24 <<< k).extractLsb' 8 8, (v.setWidth 24 <<< k).extractLsb' 0 8]

theorem damaged_burst (a b c : Byte) (v : BitVec 16) (k : Nat) : damaged [a, b, c] (burst v k) =
    [a ^^^ (v.setWidth 24 <<< k).extractLsb' 16 8, b ^^^ (v.setWidth 24 <<< k).extractLsb' 8 8,
      c ^^^ (v.setWidth 24 <<< k).extractLsb' 0 8] := rfl

theorem burst_field (hk : k ≤ 8) {lo : Nat} (hlo : lo ≤ 8) :
    (v.setWidth 24 <<< k).extractLsb' (8 + lo) 8 = (v >>> (8 - k)).extractLsb' lo 8 := by
  apply BitVec.eq_of_getLsbD_eq
  intro i hi
  have hplace : 8 + lo + i - k = 8 - k + (lo + i) := by omega
  have hin : 8 + lo + i < 24 ∧ ¬ 8 + lo + i < k ∧ 8 - k + (lo + i) < 24 := by omega
  simp [hplace, hin, hi]

/-- The burst as a word and a byte behind it. -/
theorem burst_eq (hk : k ≤ 8) : burst v k = be16 (v >>> (8 - k)) ++ [v.setWidth 8 <<< k] := by
  have hlast : (v.setWidth 24 <<< k).extractLsb' 0 8 = v.setWidth 8 <<< k := by
    rw [low_field_eq, BitVec.setWidth_shiftLeft_of_le (by decide), BitVec.setWidth_setWidth_of_le _ (by decide)]
  rw [burst, be16, ← burst_field hk (Nat.le_refl 8), ← burst_field hk (Nat.zero_le 8), hlast]
  rfl

theorem crcFeed_burst (hk : k ≤ 8) : crcFeed poly 0#16 (burst v k) = crcShifts poly (8 + k + 8) v := by
  have hsum : 8 - k + (8 + k) = 16 := by omega
  have hlast : (v.setWidth 8 <<< k).setWidth 16 <<< 8 = v <<< (8 + k) := by
    ext i hi
    simp only [BitVec.getElem_shiftLeft, BitVec.getElem_setWidth, BitVec.getLsbD_shiftLeft, BitVec.getLsbD_setWidth]
    grind
  have hpair := crcShifts_high_xor_low (poly := poly) (m := 8 + k) (j := 8 - k) (by omega) v
  rw [hsum] at hpair
  rw [burst_eq hk, crcFeed_append, crcFeed_be16, crcFeed_cons, crcFeed_nil, crcStep_sixteen, hlast, crcShifts_add, ← hpair,
    BitVec.zero_xor]

end Bursts

/-- Settles O36: at a correct trailer the loop runs on a register of 0. -/
theorem correctTrailerMeansZeroResidue : Obligations.CorrectTrailerMeansZeroResidue := by
  refine ⟨fun p m hp => ?_, fun cfg f hcrc hf => ?_⟩
  · rw [crc_append_be16 hp, BitVec.xor_self, crcShifts_zero]
    rfl
  · exact hasCorrectTrailer_iff (by rw [hcrc]) (by rw [hcrc]; rfl) hf

/-- Settles O37: a burst alone leaves a register other than 0. -/
theorem burstErrorsBreakTheTrailer : Obligations.BurstErrorsBreakTheTrailer := by
  intro cfg v hcrc hv
  have hp : cfg.crc16.xorOut = 0 := by rw [hcrc]
  have hodd : cfg.crc16.poly.getLsbD 0 = true := by rw [hcrc]; rfl
  have hloop (n : Nat) : crcShifts cfg.crc16.poly n v ≠ 0#16 := mt (crcShifts_eq_zero_iff hodd n v).mp hv
  refine ⟨?_, fun a b hok => ?_⟩
  · intro pre post a b c k hk e hok
    have he : crcFeed cfg.crc16.poly 0#16 (burst v k) ≠ 0#16 := by
      rw [crcFeed_burst hk]
      exact hloop _
    have hlen : 2 ≤ (pre ++ [a, b, c] ++ post).length := by
      simp
      omega
    have hbad := hasCorrectTrailer_damaged (post := post) (s := [a, b, c]) (e := burst v k) hp hodd hlen rfl he hok
    rw [damaged_burst] at hbad
    exact hbad
  · have he : crcFeed cfg.crc16.poly 0#16 (be16 v) ≠ 0#16 := by
      rw [crcFeed_be16]
      simpa using hloop 16
    simpa [damaged, be16] using hasCorrectTrailer_damaged (pre := []) (s := [a, b]) (e := be16 v) (post := []) hp hodd
      (Nat.le_refl 2) rfl he hok

end Sys2Proof.Machine

/-! ### A flipped bit in a reply frame (43_frame_decode.md R162, R163, R167) -/

namespace Sys2Proof.Machine

section Corruption

variable {cfg : Config} {f : List Byte} {i : Nat} {b : Byte}

/-- What an `OK` of FRM.CHKX says of the checks before the length (R162, R163). -/
theorem replyChecked_ok (h : (replyChecked cfg f).status = .ok) :
    7 ≤ f.length ∧ f.take 2 = cfg.rxMagic.toList ∧ byteAt f 2 = cfg.rxExtCmd ∧ hasCorrectTrailer cfg f = true := by
  unfold replyChecked at h
  split_ifs at h with hlen hmagic hcmd htrailer
  case neg =>
    rw [slice_zero] at hmagic
    exact ⟨Nat.not_lt.mp hlen, not_not.mp hmagic, not_not.mp hcmd, by simpa using htrailer⟩
  all_goals cases h

/-! The check that answers, with the checks before it passed (R163) -/

theorem replyChecked_of_magic (hlen : 7 ≤ f.length) (hmagic : f.take 2 ≠ cfg.rxMagic.toList) :
    replyChecked cfg f = .raised .invalidMagic := by
  rw [replyChecked, if_neg (Nat.not_lt.mpr hlen), slice_zero, if_pos hmagic]

theorem replyChecked_of_cmd (hlen : 7 ≤ f.length) (hmagic : f.take 2 = cfg.rxMagic.toList)
    (hcmd : byteAt f 2 ≠ cfg.rxExtCmd) :
    replyChecked cfg f = .raised .invalidCmd := by
  rw [replyChecked, if_neg (Nat.not_lt.mpr hlen), slice_zero, if_neg (not_not_intro hmagic), if_pos hcmd]

theorem replyChecked_of_trailer (hlen : 7 ≤ f.length) (hmagic : f.take 2 = cfg.rxMagic.toList)
    (hcmd : byteAt f 2 = cfg.rxExtCmd) (htrailer : hasCorrectTrailer cfg f = false) :
    replyChecked cfg f = .raised .invalidCrc := by
  rw [replyChecked, if_neg (Nat.not_lt.mpr hlen), slice_zero, if_neg (not_not_intro hmagic), if_neg (not_not_intro hcmd),
    if_pos (by rw [htrailer]; rfl)]

/-- Another byte anywhere in a frame damages its trailer. -/
theorem hasCorrectTrailer_set (hp : cfg.crc16.xorOut = 0) (hodd : cfg.crc16.poly.getLsbD 0 = true) (hlen : 2 ≤ f.length)
    (hi : i < f.length) (hb : b ≠ 0#8) (hok : hasCorrectTrailer cfg f = true) :
    hasCorrectTrailer cfg (f.set i (f[i] ^^^ b)) = false := by
  have hwhole : f.take i ++ [f[i]] ++ f.drop (i + 1) = f := by simp
  have hset : f.take i ++ damaged [f[i]] [b] ++ f.drop (i + 1) = f.set i (f[i] ^^^ b) := by
    simp [damaged, List.set_eq_take_append_cons_drop, hi]
  have he : crcFeed cfg.crc16.poly 0#16 [b] ≠ 0#16 := by
    have htop : b.setWidth 16 <<< 8 ≠ 0#16 := by bv_omega
    rwa [crcFeed_cons, crcFeed_nil, crcStep_sixteen, BitVec.zero_xor, Ne, crcShifts_eq_zero_iff hodd]
  rw [← hset]
  exact hasCorrectTrailer_damaged hp hodd (hwhole.symm ▸ hlen) rfl he (hwhole.symm ▸ hok)

/-- The status the first check that sees a changed byte gives (R163). -/
theorem replyChecked_set (hp : cfg.crc16.xorOut = 0) (hodd : cfg.crc16.poly.getLsbD 0 = true)
    (hi : i < f.length) (hb : b ≠ 0#8) (hok : (replyChecked cfg f).status = .ok) :
    replyChecked cfg (f.set i (f[i] ^^^ b)) =
      .raised (if i < 2 then .invalidMagic else if i = 2 then .invalidCmd else .invalidCrc) := by
  obtain ⟨hlen, hmagic, hcmd, htrailer⟩ := replyChecked_ok hok
  have hlen' : 7 ≤ (f.set i (f[i] ^^^ b)).length := by simpa using hlen
  have hne : f[i] ^^^ b ≠ f[i] := by simpa using hb
  split_ifs with hi2 hi2'
  · refine replyChecked_of_magic hlen' fun hsame => hne ?_
    simpa [hi2, hi] using congrArg (·[i]?) (hsame.trans hmagic.symm)
  · subst hi2'
    refine replyChecked_of_cmd hlen' ?_ fun hsame => hne ?_
    · rw [List.take_set_of_le (Nat.le_refl 2), hmagic]
    · simpa [byteAt, hi] using hsame.trans hcmd.symm
  · refine replyChecked_of_trailer hlen' ?_ ?_ (hasCorrectTrailer_set hp hodd (by omega) hi hb htrailer)
    · rw [List.take_set_of_le (by omega), hmagic]
    · rw [← hcmd]
      simp [byteAt, List.getElem?_set_ne hi2']

/-- An `OK` means that the buffer check passed too. -/
theorem exec_frmChkx_ok {s t : State} {r : Response} (hexec : exec .frmChkx s = .next t) (hr : t.response = some r)
    (hok : r.status = .ok) : s.request.WellFormed s.cfg ∧ (replyChecked s.cfg s.request.in0).status = .ok := by
  have harm : exec .frmChkx s = .next (s.checked (s.respond (replyChecked s.cfg s.request.in0))) := rfl
  obtain rfl := Host.Outcome.next.inj (harm.symm.trans hexec)
  rcases s.checked_cases (s.respond (replyChecked s.cfg s.request.in0)) with ⟨-, hc⟩ | ⟨hfit, hc⟩ <;> rw [hc] at hr
  · cases hr
    cases hok
  · cases hr
    exact ⟨hfit, hok⟩

end Corruption

/-- Settles O49: the first check that sees the flipped bit answers. -/
theorem singleBitCorruptionIsRejected : Obligations.SingleBitCorruptionIsRejected := by
  intro s t r i bit hi hcrc hexec hr hok hbit f' s' status
  obtain ⟨hfit, hchecked⟩ := exec_frmChkx_ok hexec hr hok
  have hflip : BitVec.twoPow 8 bit ≠ 0#8 := fun h => by
    simpa [BitVec.getLsbD_twoPow, hbit] using congrArg (·.getLsbD bit) h
  have hfit' : s'.request.WellFormed s'.cfg := by
    simpa [Request.WellFormed, s', f'] using hfit
  have hraised : replyChecked s'.cfg s'.request.in0 = .raised status :=
    replyChecked_set (by rw [hcrc]) (by rw [hcrc]; rfl) hi hflip hchecked
  have harm := exec_of_response (i := .frmChkx) (r := replyChecked s'.cfg s'.request.in0) rfl hfit'
  rw [hraised] at harm
  exact harm

end Sys2Proof.Machine

/-! ### The length field (41_length_field.md R140 to R145) -/

namespace Sys2Proof.Machine

section LengthField

variable {n : Nat} {a : Operand}

/-! A byte as its flag bit in front of 7 value bits (R140) -/

theorem ofNat_eq_append (w v n : Nat) : BitVec.ofNat (w + v) n = BitVec.ofNat w (n >>> v) ++ BitVec.ofNat v n := by
  apply BitVec.eq_of_getLsbD_eq
  intro i hi
  rw [BitVec.getLsbD_append, BitVec.getLsbD_ofNat, BitVec.getLsbD_ofNat, BitVec.getLsbD_ofNat, Nat.testBit_shiftRight]
  by_cases hv : i < v
  · simp [hv, hi]
  · have hw : i - v < w := by omega
    simp [hv, hi, hw, Nat.add_sub_cancel' (Nat.not_lt.mp hv)]

/-- A value of at most 7 bits leaves the flag clear. -/
theorem ofNat_eq_clear_append (h : n ≤ 127) : BitVec.ofNat 8 n = 0#1 ++ BitVec.ofNat 7 n := by
  have hhigh : n >>> 7 = 0 := Nat.shiftRight_eq_zero n 7 (by omega)
  rw [ofNat_eq_append 1 7, hhigh]

theorem lenFlag_or_ofNat (n : Nat) : lenFlag ||| BitVec.ofNat 8 n = 1#1 ++ BitVec.ofNat 7 n := by
  rw [ofNat_eq_append 1 7, show lenFlag = 1#1 ++ 0#7 from rfl, BitVec.or_append, BitVec.zero_or]
  exact congrArg (· ++ _) BitVec.allOnes_or

theorem flag_append_msb (f : BitVec 1) (v : BitVec 7) : BitVec.msb (n := 8) (f ++ v) = f.msb := BitVec.msb_append

theorem clear_append_toNat (v : BitVec 7) : BitVec.toNat (w := 8) (0#1 ++ v) = v.toNat := by
  have h := BitVec.toNat_append 0#1 v
  rwa [BitVec.toNat_zero, Nat.zero_shiftLeft, Nat.zero_or] at h

/-- R141's mask `0x7F` leaves the value bits. -/
theorem flag_append_and_mask (f : BitVec 1) (v : BitVec 7) : ((f ++ v : Byte) &&& 0x7F).toNat = v.toNat := by
  have hlow : (f ++ v).toNat % 2 ^ 7 = v.toNat := by
    rw [← BitVec.toNat_setWidth, BitVec.setWidth_append_eq_right]
  rw [BitVec.toNat_and]
  exact (Nat.and_two_pow_sub_one_eq_mod _ 7).trans hlow

/-! Encoding -/

theorem encLen_of_le (h : n ≤ 127) : encLen n = [0#1 ++ BitVec.ofNat 7 n] := by
  rw [← ofNat_eq_clear_append h]
  exact if_pos h

theorem encLen_of_gt (h : 127 < n) : encLen n = [1#1 ++ BitVec.ofNat 7 (n >>> 8), BitVec.ofNat 8 n] := by
  rw [← lenFlag_or_ofNat]
  exact if_neg (Nat.not_le.mpr h)

/-! Decoding -/

theorem decLen_short (v : BitVec 7) (rest : List Byte) : decLen ((0#1 ++ v) :: rest) = some (v.toNat, 1) := by
  rw [← clear_append_toNat v]
  exact if_neg (Bool.eq_false_iff.mp (flag_append_msb 0#1 v))

theorem decLen_cut (v : BitVec 7) : decLen [1#1 ++ v] = none := if_pos (flag_append_msb 1#1 v)

theorem decLen_long (v : BitVec 7) (c : Byte) (rest : List Byte) :
    decLen ((1#1 ++ v) :: c :: rest) = some ((v ++ c).toNat, 2) := by
  rw [BitVec.toNat_append, ← flag_append_and_mask 1#1 v]
  exact if_pos (flag_append_msb 1#1 v)

/-! The responses -/

theorem zext64_toNat {w : Nat} (x : BitVec w) (h : w ≤ 64) : zext64 x.toNat = x.setWidth 64 := by
  rw [zext64_of_lt (x.isLt.trans_le (Nat.pow_le_pow_right Nat.two_pos h)), BitVec.ofNat_toNat]

theorem lengthEncoded_of_le (h : a.toNat ≤ 32767) :
    lengthEncoded a = .done (BitVec.ofNat 64 (encLen a.toNat).length) 0 (encLen a.toNat) := by
  have hfield := encLen_length_le a.toNat
  rw [lengthEncoded, if_neg (show ¬ longLenMax < a.toNat from Nat.not_lt.mpr h), zext64_of_lt (by omega)]

theorem lengthEncoded_of_gt (h : 32767 < a.toNat) : lengthEncoded a = .raised .operandRange := if_pos h

theorem lengthDecoded_of_none {s : List Byte} (h : decLen s = none) : lengthDecoded s = .raised .invalidShort := by
  rw [lengthDecoded, h, ite_self]

theorem lengthDecoded_of_some {w : Nat} {s : List Byte} {x : BitVec w} {k : Nat} (hw : w ≤ 64)
    (h : decLen s = some (x.toNat, k)) : lengthDecoded s = .done (x.setWidth 64) (zext64 k) := by
  have hne : s.length ≠ 0 := by
    intro h0
    rw [List.length_eq_zero_iff.mp h0] at h
    cases h
  rw [lengthDecoded, if_neg hne, h, ← zext64_toNat x hw]

end LengthField

/-- Settles O38: LEN.ENC answers `lengthEncoded`, in each of its three ranges. -/
theorem lengthEncodeResult : Obligations.LengthEncodeResult := by
  intro s hfit n
  have hexec : exec .lenEnc s = .next { s with response := some (lengthEncoded n) } := exec_of_response rfl hfit
  refine ⟨fun hshort => ?_, fun hlow hlong => ?_, fun hgt => ?_⟩ <;> rw [hexec]
  · rw [lengthEncoded_of_le (hshort.trans (by decide)), encLen_of_le hshort, ← ofNat_eq_clear_append hshort]
    rfl
  · rw [lengthEncoded_of_le hlong, encLen_of_gt hlow]
    rfl
  · rw [lengthEncoded_of_gt hgt]
    rfl

/-- Settles O39: LEN.DEC answers `lengthDecoded`, on each of the four forms of `IN0`. -/
theorem lengthDecodeResult : Obligations.LengthDecodeResult := by
  intro s hfit
  have hexec {r : Response} (h : lengthDecoded s.request.in0 = r) : exec .lenDec s = .next { s with response := some r } :=
    h ▸ exec_of_response rfl hfit
  refine ⟨fun hin => hexec ?_, fun v rest hin => hexec ?_, fun v hin => hexec ?_, fun v c rest hin => hexec ?_⟩ <;> rw [hin]
  · exact lengthDecoded_of_none rfl
  · exact lengthDecoded_of_some (by decide) (decLen_short v rest)
  · exact lengthDecoded_of_none (decLen_cut v)
  · exact lengthDecoded_of_some (by decide) (decLen_long v c rest)

/-- Settles O40, on each side of the limit of the short form: what `encLen` writes has the form that `decLen` reads. -/
theorem lengthFieldInvertible : Obligations.LengthFieldInvertible := by
  intro n rest hmax
  rcases Nat.lt_or_ge 127 n with hgt | hle
  · have hvalue : (BitVec.ofNat 15 n).toNat = n := (BitVec.toNat_ofNat n 15).trans (Nat.mod_eq_of_lt (by omega))
    have hdec := decLen_long (BitVec.ofNat 7 (n >>> 8)) (BitVec.ofNat 8 n) rest
    rw [← ofNat_eq_append, hvalue] at hdec
    rw [encLen_of_gt hgt]
    exact ⟨hdec, by simp; omega, fun _ => ⟨rfl, flag_append_msb 1#1 _⟩⟩
  · have hvalue : (BitVec.ofNat 7 n).toNat = n := (BitVec.toNat_ofNat n 7).trans (Nat.mod_eq_of_lt (by omega))
    have hdec := decLen_short (BitVec.ofNat 7 n) rest
    rw [hvalue] at hdec
    rw [encLen_of_le hle]
    exact ⟨hdec, by simpa using hle, fun hne => absurd rfl hne⟩

end Sys2Proof.Machine

/-! ### The sizes and the laws of the command frames (42_frame_encode.md R153, R156) -/

namespace Sys2Proof.Machine

/-- Where a byte string `f` carries the operands of a command frame (R156): each field at its offset, the payload behind its
length field. -/
structure CarriesCommand (cfg : Config) (o i : Byte) (p f : List Byte) : Prop where
  magic : f.take 4 = cfg.txMagic.toList
  outer : f[4]? = some o
  inner : f[5]? = some i
  length : decLen (f.drop 6) = some (p.length, (encLen p.length).length)
  payload : (f.drop (6 + (encLen p.length).length)).take p.length = p

section Layout

variable {cfg : Config} {o i : Byte} {p : List Byte}

theorem commandFrame_carries (h : p.length ≤ 32767) : CarriesCommand cfg o i p (commandFrame cfg o i p) := by
  have hmagic : cfg.txMagic.toList.length = 4 := by simp
  obtain ⟨rest, hframe⟩ : ∃ rest, commandFrame cfg o i p = cfg.txMagic.toList ++ o :: i :: (encLen p.length ++ (p ++ rest)) :=
    ⟨be16 (crc cfg.crc16 (frameBody cfg o i p)), by simp [commandFrame, frameBody]⟩
  have hdrop : (commandFrame cfg o i p).drop 6 = encLen p.length ++ (p ++ rest) := by
    simp [hframe, List.drop_append, hmagic]
  obtain ⟨hlen, -⟩ := lengthFieldInvertible p.length (p ++ rest) h
  constructor
  case magic => rw [hframe, List.take_left' hmagic]
  case outer => simp [hframe, hmagic]
  case inner => simp [hframe, List.getElem?_append, hmagic]
  case length => rw [hdrop, hlen]
  case payload => rw [← List.drop_drop, hdrop, List.drop_left, List.take_left]

/-- A byte string carries the operands of one command at most: its length field says where the payload ends. -/
theorem CarriesCommand.unique {o' i' : Byte} {p' f : List Byte} (h : CarriesCommand cfg o i p f)
    (h' : CarriesCommand cfg o' i' p' f) : o = o' ∧ i = i' ∧ p = p' := by
  have houter := h.outer.symm.trans h'.outer
  have hinner := h.inner.symm.trans h'.inner
  have hlength := h.length.symm.trans h'.length
  simp only [Option.some.injEq, Prod.mk.injEq] at houter hinner hlength
  obtain ⟨hlen, -⟩ := hlength
  have hpayload := h'.payload
  rw [← hlen] at hpayload
  exact ⟨houter, hinner, h.payload.symm.trans hpayload⟩

/-- R153: 8 bytes around a length field of 1 or 2 bytes and the payload. -/
theorem commandFrame_size (h : p.length ≤ 32767) :
    9 ≤ (commandFrame cfg o i p).length ∧ (commandFrame cfg o i p).length ≤ 32777 ∧
      (p.length = 0 → (commandFrame cfg o i p).length = 9) ∧ (p.length = 32767 → (commandFrame cfg o i p).length = 32777) := by
  rw [commandFrame_length, encLen_length]
  split <;> omega

end Layout

section Answer

variable {s : State} {r q : Response}

/-- The frame FRM.ENCX builds from the operands on the request port. -/
def State.askedFrame (s : State) : List Byte := commandFrame s.cfg s.opByte s.opInner s.opIn

theorem exec_frmEncx_of_le (hfit : s.request.WellFormed s.cfg) (h : s.opIn.length ≤ 32767) :
    ∃ r, exec .frmEncx s = .next { s with response := some r } ∧ r.status = .ok ∧ r.out = s.askedFrame := by
  refine ⟨_, exec_of_response rfl hfit, ?_⟩
  rw [frameEncoded_of_le h]
  exact ⟨rfl, rfl⟩

/-- A status of `OK` says that the buffer check has passed, so that the response is the operation's own. -/
theorem State.eq_of_checked_ok (h : s.checked (s.respond r) = s.respond q) (hok : q.status = .ok) : q = r := by
  have hresponse := congrArg State.response h
  rcases s.checked_cases (s.respond r) with ⟨-, hc⟩ | ⟨-, hc⟩ <;> rw [hc] at hresponse
  · obtain rfl : Response.raised .operandRange = q := Option.some.inj hresponse
    cases hok
  · exact (Option.some.inj hresponse).symm

/-- FRM.ENCX completes on a payload that the length field can hold and on no other. -/
theorem exec_frmEncx_ok (hexec : exec .frmEncx s = .next { s with response := some q }) (hok : q.status = .ok) :
    s.opIn.length ≤ 32767 ∧ q.out = s.askedFrame := by
  obtain rfl := State.eq_of_checked_ok (Host.Outcome.next.inj hexec) hok
  rcases Nat.lt_or_ge 32767 s.opIn.length with hgt | hle
  · rw [frameEncoded_of_gt hgt] at hok
    cases hok
  · rw [frameEncoded_of_le hle]
    exact ⟨hle, rfl⟩

/-- The two command bytes are the low half of `A` (R65). -/
theorem State.low_half_eq_append (s : State) : s.request.a.extractLsb' 0 16 = s.opInner ++ s.opByte :=
  (BitVec.extractLsb'_append_extractLsb'_eq_extractLsb' (len₁ := 8) (len₂ := 8) rfl).symm

end Answer

/-- Settles O42: the size of a frame follows from the length of its field, and `MAX_BUF` leaves room for the longest. -/
theorem commandFrameSizes : Obligations.CommandFrameSizes := by
  refine ⟨fun cfg o i p h => commandFrame_size h, fun s hbuf hle => ?_⟩
  have hfit : s.request.WellFormed s.cfg := by omega
  obtain ⟨r, hexec, hok, hout⟩ := exec_frmEncx_of_le hfit hle
  obtain ⟨-, hmax, -⟩ := commandFrame_size (cfg := s.cfg) (o := s.opByte) (i := s.opInner) hle
  exact ⟨_, r, hexec, rfl, hok, hout ▸ hmax.trans hbuf⟩

/-- Settles O43: the residue is O36, the fields are those a frame carries, and a frame carries one triple of operands. -/
theorem commandFrameLaws : Obligations.CommandFrameLaws := by
  intro s hxor hfit hle p k
  obtain ⟨r, hexec, hok, hout⟩ := exec_frmEncx_of_le hfit hle
  obtain ⟨hzero, -⟩ := correctTrailerMeansZeroResidue
  have hresidue : crc s.cfg.crc16 r.out = 0 := hout ▸ hzero s.cfg.crc16 _ hxor
  have hcarries : CarriesCommand s.cfg s.opByte s.opInner p r.out := hout ▸ commandFrame_carries hle
  refine ⟨r, hexec, hok, hresidue, hcarries.magic, hcarries.outer, hcarries.inner, hcarries.length, hcarries.payload, ?_⟩
  intro u q hcfg huexec huok hsame
  obtain ⟨hule, huout⟩ := exec_frmEncx_ok huexec huok
  have hucarries : CarriesCommand s.cfg u.opByte u.opInner u.opIn r.out := by
    rw [← hsame, huout, ← hcfg]
    exact commandFrame_carries hule
  obtain ⟨houter, hinner, hpayload⟩ := hucarries.unique hcarries
  refine ⟨?_, hpayload⟩
  rw [State.low_half_eq_append, State.low_half_eq_append, houter, hinner]

end Sys2Proof.Machine

/-! ### The length field of a received frame, and FRM.RXLEN (43_frame_decode.md R160, R164) -/

namespace Sys2Proof.Machine

/-- The number of bytes of a length field whose first byte is `b` (R141). -/
def fieldSize (b : Byte) : Nat := if b.msb then 2 else 1

/-- The value of a length field whose first byte is `b`, when `c` comes next (R141). -/
def fieldValue (b c : Byte) : Nat := if b.msb then (b.extractLsb' 0 7 ++ c).toNat else b.toNat

theorem fieldSize_bounds (b : Byte) : 1 ≤ fieldSize b ∧ fieldSize b ≤ 2 := by
  unfold fieldSize
  split <;> decide

/-- R141's mask and shift put the value bits of the first byte in front of the second. -/
theorem and_mask_or_eq_append (b c : Byte) : (b &&& 0x7F).toNat <<< 8 ||| c.toNat = (b.extractLsb' 0 7 ++ c).toNat := by
  have hlow : (b &&& 0x7F).toNat = (b.extractLsb' 0 7).toNat := by
    rw [BitVec.extractLsb'_toNat, BitVec.toNat_and]
    exact Nat.and_two_pow_sub_one_eq_mod _ 7
  rw [BitVec.toNat_append, hlow]

theorem decLen_eq_ite (s : List Byte) : decLen s = if fieldSize (byteAt s 0) ≤ s.length
    then some (fieldValue (byteAt s 0) (byteAt s 1), fieldSize (byteAt s 0)) else none := by
  match s with
  | [] => rfl
  | [b] => cases hb : b.msb <;> simp [decLen, fieldSize, fieldValue, byteAt, hb]
  | b :: c :: s =>
    rw [decLen, and_mask_or_eq_append]
    cases hb : b.msb <;> simp [fieldSize, fieldValue, byteAt, hb]

theorem byteAt_drop (s : List Byte) (i j : Nat) : byteAt (s.drop i) j = byteAt s (i + j) := by simp [byteAt]

theorem decLen_drop_of_le {s : List Byte} {i : Nat} (h : i + fieldSize (byteAt s i) ≤ s.length) :
    decLen (s.drop i) = some (fieldValue (byteAt s i) (byteAt s (i + 1)), fieldSize (byteAt s i)) := by
  rw [decLen_eq_ite, byteAt_drop, byteAt_drop, List.length_drop, Nat.add_zero, if_pos (by omega)]

theorem decLen_drop_of_lt {s : List Byte} {i : Nat} (h : s.length < i + fieldSize (byteAt s i)) :
    decLen (s.drop i) = none := by
  obtain ⟨hpos, -⟩ := fieldSize_bounds (byteAt s i)
  rw [decLen_eq_ite, byteAt_drop, List.length_drop, Nat.add_zero, if_neg (by omega)]

theorem lenOff_eq_ite (cfg : Config) : lenOff cfg = if cfg.rxLayout = .lenThenInner then 3 else 4 := by
  cases h : cfg.rxLayout <;> simp [lenOff, h]

theorem lenOff_le (cfg : Config) : lenOff cfg ≤ 4 := by
  rw [lenOff_eq_ite]
  split <;> decide

section Discovery

variable {cfg : Config} {f : List Byte} {l k : Nat}

theorem exec_frmRxlen {s : State} (hfit : s.request.WellFormed s.cfg) :
    exec .frmRxlen s = .next { s with response := some (replyLength s.cfg s.request.in0) } :=
  exec_of_response rfl hfit

theorem replyLength_of_le (h : f.length ≤ 4) : replyLength cfg f = .raised .needMore := if_pos h

theorem replyLength_of_none (h : decLen (f.drop (lenOff cfg)) = none) : replyLength cfg f = .raised .needMore := by
  simp only [replyLength, slice_to_end, h, ite_self]

/-- Where `dec_len` answers, the field is there, so that the checks before it pass (R164). -/
theorem replyLength_of_some (hlen : 4 < f.length) (h : decLen (f.drop (lenOff cfg)) = some (l, k)) :
    replyLength cfg f = .done (zext64 (declaredTotal cfg l k)) (BitVec.ofNat 64 k) := by
  obtain ⟨hk, -⟩ := decLen_bounds h
  have hthere : lenOff cfg + fieldSize (byteAt f (lenOff cfg)) ≤ f.length := by
    by_contra hcut
    cases (decLen_drop_of_lt (Nat.not_le.mp hcut)).symm.trans h
  have hsecond : ¬ ((byteAt f (lenOff cfg)).msb && f.length < lenOff cfg + 2) = true := by
    intro hcut
    rw [Bool.and_eq_true, decide_eq_true_eq] at hcut
    obtain ⟨hmsb, hshort⟩ := hcut
    rw [fieldSize, if_pos hmsb] at hthere
    omega
  have hoff := lenOff_le cfg
  rw [← zext64_of_lt (v := k) (by omega), replyLength, if_neg (show ¬ f.length ≤ discoveryMin from Nat.not_le.mpr hlen),
    if_neg (by omega), if_neg hsecond, slice_to_end, h]

end Discovery

/-- Settles O52: what `decLen` reads at the offset of the length field is the field the statement spells out. -/
theorem replyLengthDiscovery : Obligations.ReplyLengthDiscovery := by
  intro s hfit f off long l k total
  have hoff : lenOff s.cfg = off := lenOff_eq_ite s.cfg
  have hexec {r : Response} (h : replyLength s.cfg f = r) : exec .frmRxlen s = .next { s with response := some r } :=
    h ▸ exec_frmRxlen hfit
  refine ⟨fun hshort => hexec ?_, fun hlen hthere => ⟨_, hexec ?_, zext64_of_lt⟩⟩
  · rcases hshort with hmin | hcut
    · exact replyLength_of_le hmin
    · exact replyLength_of_none (hoff ▸ decLen_drop_of_lt hcut)
  · exact replyLength_of_some hlen (hoff ▸ decLen_drop_of_le hthere)

end Sys2Proof.Machine

/-! ### The checks of FRM.CHKX in their order (43_frame_decode.md R161 to R163) -/

namespace Sys2Proof.Machine

section Checks

variable {cfg : Config} {f : List Byte} {l k : Nat}

theorem exec_frmChkx {s : State} (hfit : s.request.WellFormed s.cfg) :
    exec .frmChkx s = .next { s with response := some (replyChecked s.cfg s.request.in0) } :=
  exec_of_response rfl hfit

theorem be16_injective : Function.Injective be16 := by
  intro v w h
  obtain ⟨hhigh, hlow⟩ : v.extractLsb' 8 8 = w.extractLsb' 8 8 ∧ v.extractLsb' 0 8 = w.extractLsb' 0 8 := by
    simpa [be16] using h
  rw [← word16_be16 v, hhigh, hlow, word16_be16]

/-- R161 on the bytes themselves: the last two are the CRC16 of those before. -/
theorem hasCorrectTrailer_iff_drop (hf : 2 ≤ f.length) :
    hasCorrectTrailer cfg f = true ↔ f.drop (f.length - 2) = be16 (crc cfg.crc16 (f.take (f.length - 2))) := by
  obtain ⟨m, v, rfl⟩ := exists_append_be16 hf
  have hcut : (m ++ be16 v).length - 2 = m.length := by simp
  rw [hasCorrectTrailer_append_be16, hcut, List.drop_left, List.take_left, be16_injective.eq_iff, beq_iff_eq]
  exact eq_comm

theorem getElem?_two_eq_some_iff {b : Byte} (hlen : 7 ≤ f.length) : f[2]? = some b ↔ byteAt f 2 = b := by
  have hthere : 2 < f.length := by omega
  simp [byteAt, hthere]

theorem replyChecked_of_short (hlen : f.length < 7) : replyChecked cfg f = .raised .invalidShort := if_pos hlen

/-- With every check before it passed, the length field is read and the frame split (R162). -/
theorem replyChecked_eq_split (hlen : 7 ≤ f.length) (hmagic : f.take 2 = cfg.rxMagic.toList)
    (hcmd : byteAt f 2 = cfg.rxExtCmd) (htrailer : hasCorrectTrailer cfg f = true)
    (hfield : decLen (f.drop (lenOff cfg)) = some (l, k)) : replyChecked cfg f = replySplit cfg f l k := by
  rw [replyChecked, if_neg (Nat.not_lt.mpr hlen), slice_zero, if_neg (not_not_intro hmagic), if_neg (not_not_intro hcmd),
    if_neg (by rw [htrailer]; decide), slice_to_end, hfield]

theorem replySplit_of_length (hthere : 6 + k ≤ f.length) (hstrict : cfg.rxStrictLength = true)
    (hne : declaredTotal cfg l k ≠ f.length) : replySplit cfg f l k = .raised .invalidLength := by
  rw [replySplit, if_neg (Nat.not_lt.mpr hthere), if_pos (by simpa [hstrict] using hne)]

theorem replySplit_of_passed (hthere : 6 + k ≤ f.length)
    (htotal : cfg.rxStrictLength = true → declaredTotal cfg l k = f.length) : replySplit cfg f l k =
      .done (zext64 l) (replySummary cfg f k) (slice f (bodyOff k) (f.length - 2)) := by
  rw [replySplit, if_neg (Nat.not_lt.mpr hthere), if_neg (by simpa using htotal)]

/-- The last two checks, in their order (R163). -/
theorem replySplit_status : (replySplit cfg f l k).status =
    if f.length < 6 + k then .invalidShort
    else if cfg.rxStrictLength = true ∧ declaredTotal cfg l k ≠ f.length then .invalidLength
    else .ok := by
  split_ifs with hshort hne
  · rw [replySplit, if_pos hshort, Response.raised]
  · obtain ⟨hstrict, hne⟩ := hne
    rw [replySplit_of_length (Nat.not_lt.mp hshort) hstrict hne, Response.raised]
  · rw [replySplit_of_passed (Nat.not_lt.mp hshort) (by simpa using hne), Response.done]

/-- The 7 bytes of the length check hold the whole length field, in either layout (R162). -/
theorem lenOff_add_fieldSize_le (hlen : 7 ≤ f.length) : lenOff cfg + fieldSize (byteAt f (lenOff cfg)) ≤ f.length := by
  have hoff := lenOff_le cfg
  obtain ⟨-, hk⟩ := fieldSize_bounds (byteAt f (lenOff cfg))
  omega

end Checks

/-- Settles O46: each branch of the chain is one check that fails with those before it passed. -/
theorem replyChecksRunInOrder : Obligations.ReplyChecksRunInOrder := by
  intro s hfit f n off long l k
  refine ⟨replyChecked s.cfg f, exec_frmChkx hfit, ?_⟩
  by_cases hshort : n < 7
  · rw [if_pos hshort, replyChecked_of_short hshort, Response.raised]
  have hlen : 7 ≤ f.length := Nat.not_lt.mp hshort
  by_cases hmagic : f.take 2 = s.cfg.rxMagic.toList
  case neg => rw [if_neg hshort, if_pos hmagic, replyChecked_of_magic hlen hmagic, Response.raised]
  by_cases hcmd : f[2]? = some s.cfg.rxExtCmd
  case neg =>
    rw [if_neg hshort, if_neg (not_not_intro hmagic), if_pos hcmd,
      replyChecked_of_cmd hlen hmagic (mt (getElem?_two_eq_some_iff hlen).mpr hcmd), Response.raised]
  have hbyte := (getElem?_two_eq_some_iff hlen).mp hcmd
  have htrailerIff := hasCorrectTrailer_iff_drop (cfg := s.cfg) (f := f) (by omega)
  rw [if_neg hshort, if_neg (not_not_intro hmagic), if_neg (not_not_intro hcmd)]
  by_cases htrailer : hasCorrectTrailer s.cfg f = true
  case neg =>
    rw [if_pos (mt htrailerIff.mpr htrailer), replyChecked_of_trailer hlen hmagic hbyte (Bool.eq_false_iff.mpr htrailer),
      Response.raised]
  have hoff : lenOff s.cfg = off := lenOff_eq_ite s.cfg
  have hsplit := replyChecked_eq_split hlen hmagic hbyte htrailer (decLen_drop_of_le (lenOff_add_fieldSize_le hlen))
  rw [hoff] at hsplit
  rw [if_neg (not_not_intro (htrailerIff.mp htrailer)), hsplit]
  exact replySplit_status

end Sys2Proof.Machine

/-! ### The laws of the receive side (43_frame_decode.md R162, R167; 70_reset_and_hazards.md R242) -/

namespace Sys2Proof.Machine

/-! The frame built around an inner command and a body -/

/-- The reply R167's acceptance law builds: its length field counts the body and 3 bytes more. -/
def builtReply (cfg : Config) (inner : Byte) (body : List Byte) : List Byte :=
  replyFrame cfg (encLen (body.length + 3)) inner body

section Built

variable {cfg : Config} {inner : Byte} {body : List Byte}

theorem builtReply_eq (hlayout : cfg.rxLayout = .lenThenInner) :
    let f := cfg.rxMagic.toList ++ [cfg.rxExtCmd] ++ encLen (body.length + 3) ++ [inner] ++ body
    builtReply cfg inner body = f ++ be16 (crc cfg.crc16 f) := by
  simp [builtReply, replyFrame, replyHead, replyMiddle, hlayout]

theorem builtReply_length : (builtReply cfg inner body).length = 6 + (encLen (body.length + 3)).length + body.length :=
  replyFrame_length

theorem builtReply_fits (hcfg : cfg.WellFormed) (hbody : body.length ≤ 32764) :
    (builtReply cfg inner body).length ≤ cfg.maxBuf := by
  obtain ⟨-, -, -, hbuf⟩ := hcfg
  have hfield := encLen_length_le (body.length + 3)
  rw [builtReply_length]
  omega

/-- With an overhead of 4 the declared total is the length of the frame, whichever form the length field takes (R160). -/
theorem declaredTotal_builtReply (hover : cfg.rxEnvelopeOverhead = 4) :
    declaredTotal cfg (body.length + 3) (encLen (body.length + 3)).length = (builtReply cfg inner body).length := by
  rw [builtReply_length, declaredTotal, hover, encLen_length]
  split <;> omega

theorem decLen_encLen_append {n : Nat} (h : n ≤ 32767) (rest : List Byte) :
    decLen (encLen n ++ rest) = some (n, (encLen n).length) := by
  obtain ⟨hdec, -⟩ := lengthFieldInvertible n rest h
  exact hdec

theorem replyChecked_builtReply (hover : cfg.rxEnvelopeOverhead = 4) (hbody : body.length ≤ 32764) :
    ∃ r1, replyChecked cfg (builtReply cfg inner body) = .done (BitVec.ofNat 64 (body.length + 3)) r1 body := by
  have hfield := decLen_encLen_append (n := body.length + 3) (by omega) []
  rw [List.append_nil] at hfield
  exact ⟨_, replyChecked_replyFrame hfield fun _ => declaredTotal_builtReply hover⟩

/-- Five bytes of the frame hold its length field (R164). -/
theorem decLen_builtReply_take {n : Nat} (hlayout : cfg.rxLayout = .lenThenInner) (hbody : body.length ≤ 32764)
    (hn : 5 ≤ n) : decLen (((builtReply cfg inner body).take n).drop (lenOff cfg)) =
      some (body.length + 3, (encLen (body.length + 3)).length) := by
  have hoff : lenOff cfg = 3 := by rw [lenOff_eq_ite, if_pos hlayout]
  have hsize := encLen_length_le (body.length + 3)
  obtain ⟨rest, hrest⟩ : ∃ rest, (builtReply cfg inner body).drop (lenOff cfg) = encLen (body.length + 3) ++ rest := by
    rw [← slice_to_end]
    exact replyHead_field
  rw [List.drop_take, hrest, hoff, List.take_append, List.take_of_length_le (by omega)]
  exact decLen_encLen_append (by omega) _

end Built

/-- Settles O47: the frame is a `builtReply`, and its declared total is its length. -/
theorem builtReplyIsAccepted : Obligations.BuiltReplyIsAccepted := by
  intro s inner body hcfg hlayout hover hbody f hin
  rw [← builtReply_eq hlayout] at hin
  obtain ⟨r1, hchecked⟩ := replyChecked_builtReply (inner := inner) hover hbody
  have hfit : s.request.in0.length ≤ s.cfg.maxBuf := hin ▸ builtReply_fits hcfg hbody
  have hexec := exec_frmChkx hfit
  rw [hin, hchecked] at hexec
  exact ⟨_, hexec, rfl, rfl, rfl⟩

/-- Settles O48: the first 5 bytes hold the length field, and that field declares the length of the whole frame. -/
theorem discoveryAgreesWithValidation : Obligations.DiscoveryAgreesWithValidation := by
  intro s inner body n hcfg hlayout hover hbody f frame hn hin
  have hframe : frame = builtReply s.cfg inner body := (builtReply_eq hlayout).symm
  rw [hframe] at hin ⊢
  have hlen := builtReply_length (cfg := s.cfg) (inner := inner) (body := body)
  have hsize := encLen_length_le (body.length + 3)
  have htake : s.request.in0.length = min n (builtReply s.cfg inner body).length := by rw [hin, List.length_take]
  have hfit : s.request.in0.length ≤ s.cfg.maxBuf :=
    htake.trans_le ((Nat.min_le_right _ _).trans (builtReply_fits hcfg hbody))
  have hfield := decLen_builtReply_take (inner := inner) hlayout hbody hn
  rw [← hin] at hfield
  have hexec := exec_frmRxlen hfit
  rw [replyLength_of_some (by omega) hfield, declaredTotal_builtReply (inner := inner) hover, zext64_of_lt (by omega)] at hexec
  exact ⟨_, hexec, rfl, rfl⟩

/-- Settles O50: a command frame starts with the magic of commands, so that the check of the magic answers. -/
theorem commandFrameIsNoReply : Obligations.CommandFrameIsNoReply := by
  intro s o i p hcfg hp hmagic hin
  obtain ⟨hmin, hmax, -⟩ := commandFrame_size (cfg := s.cfg) (o := o) (i := i) hp
  have ⟨_, _, _, hbuf⟩ := hcfg
  have hfit : s.request.in0.length ≤ s.cfg.maxBuf := hin ▸ hmax.trans hbuf
  have hstart : (commandFrame s.cfg o i p).take 2 = s.cfg.txMagic.toList.take 2 := by
    rw [← (commandFrame_carries (o := o) (i := i) hp).magic, List.take_take]
    rfl
  have hraised : replyChecked s.cfg (commandFrame s.cfg o i p) = .raised .invalidMagic :=
    replyChecked_of_magic (by omega) (hstart ▸ hmagic)
  rw [exec_frmChkx hfit, hin, hraised, Response.raised]

/-! Zero bytes after a frame -/

/-- The checks of FRM.CHKX before that of the declared total pass, and the length field reads `l` in `k` bytes (R163). -/
structure SplitsAs (cfg : Config) (f : List Byte) (l k : Nat) : Prop where
  length : 7 ≤ f.length
  magic : f.take 2 = cfg.rxMagic.toList
  cmd : byteAt f 2 = cfg.rxExtCmd
  trailer : hasCorrectTrailer cfg f = true
  field : decLen (f.drop (lenOff cfg)) = some (l, k)
  there : 6 + k ≤ f.length

section Padding

variable {cfg : Config} {f z : List Byte} {l k p : Nat}

theorem SplitsAs.replyChecked_eq (h : SplitsAs cfg f l k) : replyChecked cfg f = replySplit cfg f l k :=
  replyChecked_eq_split h.length h.magic h.cmd h.trailer h.field

theorem splitsAs_of_ok (hok : (replyChecked cfg f).status = .ok) :
    ∃ l k, SplitsAs cfg f l k ∧ (cfg.rxStrictLength = true → declaredTotal cfg l k = f.length) := by
  obtain ⟨hlen, hmagic, hcmd, htrailer⟩ := replyChecked_ok hok
  have hfield := decLen_drop_of_le (lenOff_add_fieldSize_le (cfg := cfg) hlen)
  rw [replyChecked_eq_split hlen hmagic hcmd htrailer hfield, replySplit_status] at hok
  split_ifs at hok with hshort htotal
  exact ⟨_, _, ⟨hlen, hmagic, hcmd, htrailer, hfield, Nat.not_lt.mp hshort⟩, by simpa using htotal⟩

/-- A register at 0 stays there on bytes of 0. -/
theorem crcFeed_zeros {w : Nat} (poly : BitVec w) (p : Nat) : crcFeed poly 0 (List.replicate p 0) = 0 := by
  induction p with
  | zero => rfl
  | succ p ih =>
    have hentry : crcTable poly 0#8 = 0#w := crcTable_zero
    have hstep : crcStep poly 0 0 = 0 := by simp [crcStep, hentry]
    rw [List.replicate_succ, crcFeed_cons, hstep, ih]

/-- A residue of zero stays zero (R105, R162 corner cases). -/
theorem hasCorrectTrailer_append_zeros (hp : cfg.crc16.xorOut = 0) (hodd : cfg.crc16.poly.getLsbD 0 = true)
    (hlen : 2 ≤ f.length) (hok : hasCorrectTrailer cfg f = true) (p : Nat) :
    hasCorrectTrailer cfg (f ++ List.replicate p 0) = true := by
  have hresidue : crcFeed cfg.crc16.poly cfg.crc16.init f = 0 := by
    simpa [crc, hp] using (hasCorrectTrailer_iff hp hodd hlen).mp hok
  rw [hasCorrectTrailer_iff hp hodd (by rw [List.length_append]; omega), crc, hp, crcFeed_append, hresidue, crcFeed_zeros]
  exact BitVec.xor_zero

theorem byteAt_append_of_lt {i : Nat} (hi : i < f.length) : byteAt (f ++ z) i = byteAt f i := by
  rw [byteAt, byteAt, List.getD_append _ _ _ _ hi]

theorem SplitsAs.append_zeros (h : SplitsAs cfg f l k) (hp : cfg.crc16.xorOut = 0)
    (hodd : cfg.crc16.poly.getLsbD 0 = true) (p : Nat) : SplitsAs cfg (f ++ List.replicate p 0) l k := by
  have hlen := h.length
  have hthere := h.there
  have hoff := lenOff_le cfg
  constructor
  case length => rw [List.length_append]; omega
  case magic => rw [List.take_append_of_le_length (by omega), h.magic]
  case cmd => rw [byteAt_append_of_lt (by omega), h.cmd]
  case trailer => exact hasCorrectTrailer_append_zeros hp hodd (by omega) h.trailer p
  case field => rw [List.drop_append_of_le_length (by omega), decLen_append h.field]
  case there => rw [List.length_append]; omega

theorem SplitsAs.replySummary_append (h : SplitsAs cfg f l k) : replySummary cfg (f ++ z) k = replySummary cfg f k := by
  have hlen := h.length
  have hthere := h.there
  have hinner : innerOff cfg k < f.length := by
    unfold innerOff
    split <;> omega
  rw [replySummary, replySummary, byteAt_append_of_lt (by omega), byteAt_append_of_lt hinner]

/-- All but the last two bytes of a longer string: what stood there before, then as many bytes as were added (R162). -/
theorem slice_append_sub_two {i : Nat} (hi : i + 2 ≤ f.length) : slice (f ++ z) i ((f ++ z).length - 2) =
    slice f i (f.length - 2) ++ (f.drop (f.length - 2) ++ z).take z.length := by
  have hcut : (f.take (f.length - 2)).length = f.length - 2 := by rw [List.length_take]; omega
  have hend : (f ++ z).length - 2 = (f.take (f.length - 2)).length + z.length := by rw [hcut, List.length_append]; omega
  have hwhole : f ++ z = f.take (f.length - 2) ++ (f.drop (f.length - 2) ++ z) := by
    rw [← List.append_assoc, List.take_append_drop]
  rw [slice_eq_drop_take, slice_eq_drop_take, hend, hwhole, List.take_length_add_append,
    List.drop_append_of_le_length (by omega)]

/-- Without the length check the answer to a longer string keeps the result registers and grows the body (R162). -/
theorem SplitsAs.replySplit_append (h : SplitsAs cfg f l k) (hloose : cfg.rxStrictLength = false) :
    replySplit cfg (f ++ z) l k = .done (replySplit cfg f l k).r0 (replySplit cfg f l k).r1
      ((replySplit cfg f l k).out ++ (f.drop (f.length - 2) ++ z).take z.length) := by
  have hthere := h.there
  have hpass {n : Nat} : cfg.rxStrictLength = true → declaredTotal cfg l k = n := by simp [hloose]
  rw [replySplit_of_passed (by rw [List.length_append]; omega) hpass, replySplit_of_passed hthere hpass,
    h.replySummary_append, slice_append_sub_two (by rw [bodyOff]; omega)]
  rfl

end Padding

/-- Settles O51: the padded frame splits as the frame did, and only the declared total tells the two apart. -/
theorem zeroPaddingIsCaughtByLengthOnly : Obligations.ZeroPaddingIsCaughtByLengthOnly := by
  intro s t r p hcrc hexec hr hok hpos hroom s' grown
  obtain ⟨hfit, hchecked⟩ := exec_frmChkx_ok hexec hr hok
  obtain ⟨l, k, hsplit, htotal⟩ := splitsAs_of_ok hchecked
  have hpadded : SplitsAs s.cfg s'.request.in0 l k := hsplit.append_zeros (by rw [hcrc]) (by rw [hcrc]; rfl) p
  have hlength : s'.request.in0.length = s.request.in0.length + p := by simp [s']
  have hexec' {q : Response} (h : replySplit s.cfg s'.request.in0 l k = q) :
      exec .frmChkx s' = .next { s' with response := some q } :=
    h ▸ hpadded.replyChecked_eq ▸ exec_frmChkx (hlength.trans_le hroom)
  obtain rfl := Host.Outcome.next.inj ((exec_frmChkx hfit).symm.trans hexec)
  obtain rfl : replyChecked s.cfg s.request.in0 = r := Option.some.inj hr
  refine ⟨hpadded.trailer, fun hstrict => hexec' ?_, fun hloose => hexec' ?_⟩
  · exact replySplit_of_length hpadded.there hstrict (by rw [htotal hstrict]; omega)
  · rw [hsplit.replySplit_append hloose, List.length_replicate, ← hsplit.replyChecked_eq, Response.done]

end Sys2Proof.Machine

/-! ### A request for one response-only operation as a run (70_reset_and_hazards.md R254) -/

namespace Sys2Proof.Machine

/-- The run of one request for an operation that writes no accumulator gives its one response, when `IN0` fits `MAX_BUF`. -/
theorem observe_of_response {i : Instr} {f : State → Response} (harm : ∀ s, exec i s = .next (s.checked (s.respond (f s))))
    {s : State} {x : List Byte} (hfit : x.length ≤ s.cfg.maxBuf) (a b : Operand) :
    ∃ t, observe [requestFor i a b x] s = .next ([f (s.present (requestFor i a b x) [])], t) :=
  ⟨_, observe_requestFor_cons (exec_of_checked (harm _) hfit) rfl rfl⟩

end Sys2Proof.Machine

/-! ### Packing and unpacking (44_field_codec.md R180 to R183) -/

namespace Sys2Proof.Machine

/-! The arms of the six forms -/

section Forms

variable (w : IntWidth) (signed : Bool) (s : State)

theorem exec_intWrapForm : exec (intWrapForm w signed) s = .next (s.checked (s.respond (s.wrapped w signed))) := by
  cases w <;> cases signed <;> rfl

theorem exec_intPackForm : exec (intPackForm w signed) s = .next (s.checked (s.respond (s.packed w))) := by
  cases w <;> cases signed <;> rfl

theorem exec_intUnpackForm : exec (intUnpackForm w signed) s = .next (s.checked (s.respond (s.unpacked w signed))) := by
  cases w <;> cases signed <;> rfl

end Forms

/-- Reading a little-endian field gives the low bits it was written from (R182, R183). -/
theorem fromLe_leBytes (n : Nat) (v : Operand) : fromLe (leBytes n v) = v.toNat % 2 ^ (8 * n) := by
  induction n generalizing v with
  | zero => exact (Nat.mod_one _).symm
  | succ n ih =>
    have hlow : (v.extractLsb' 0 8).toNat = v.toNat % 2 ^ 8 := by rw [low_field_eq, BitVec.toNat_setWidth]
    have hhigh : (v >>> 8).toNat = v.toNat / 2 ^ 8 := by rw [BitVec.toNat_ushiftRight, Nat.shiftRight_eq_div_pow]
    have hpow : 2 ^ (8 * (n + 1)) = 2 ^ 8 * 2 ^ (8 * n) := by rw [Nat.mul_succ, Nat.add_comm, Nat.pow_add]
    rw [leBytes, fromLe, ih, hlow, hhigh, hpow, Nat.mod_mul]

/-- UNPACK on what PACK wrote, whatever follows it, reads the bits that WRAP reads. -/
theorem State.unpacked_packed {s u : State} {w : IntWidth} {rest : List Byte}
    (hin : u.request.in0 = (s.packed w).out ++ rest) (signed : Bool) : u.unpacked w signed = s.wrapped w signed := by
  have hvalue : fromLe (leBytes w.bytes s.request.a) = (s.opLow w.bits).toNat := by
    rw [fromLe_leBytes, State.opLow, BitVec.toNat_setWidth, IntWidth.bits]
  exact State.unpacked_field hin (leBytes_length _ _) hvalue signed

/-- Settles O57: the three operations of each form, with the round trip of `State.unpacked_packed`. -/
theorem packThenUnpackIsWrap : Obligations.PackThenUnpackIsWrap := by
  intro s a b rest hroom p hp
  have hform : ∃ w signed, p = (intPackForm w signed, intUnpackForm w signed, intWrapForm w signed) := by
    simp only [List.mem_cons, List.not_mem_nil, or_false] at hp
    rcases hp with rfl | rfl | rfl | rfl | rfl | rfl
    · exact ⟨.one, false, rfl⟩
    · exact ⟨.two, false, rfl⟩
    · exact ⟨.four, false, rfl⟩
    · exact ⟨.one, true, rfl⟩
    · exact ⟨.two, true, rfl⟩
    · exact ⟨.four, true, rfl⟩
  obtain ⟨w, signed, rfl⟩ := hform
  have hempty : ([] : List Byte).length ≤ s.cfg.maxBuf := Nat.zero_le _
  obtain ⟨t, hpack⟩ := observe_of_response (exec_intPackForm w signed) hempty a b
  obtain ⟨v, hwrap⟩ := observe_of_response (exec_intWrapForm w signed) hempty a b
  have hfit : (leBytes w.bytes a ++ rest).length ≤ s.cfg.maxBuf := by
    have hbytes := w.bytes_le
    rw [List.length_append, leBytes_length]
    omega
  obtain ⟨u, hunpack⟩ := observe_of_response (exec_intUnpackForm w signed) hfit b a
  rw [State.unpacked_packed (s := s.present (requestFor (intWrapForm w signed) a b []) []) rfl] at hunpack
  exact ⟨_, _, t, u, v, hpack, hunpack, hwrap, rfl⟩

end Sys2Proof.Machine

/-! ### STR.TRIM (44_field_codec.md R184) -/

namespace Sys2Proof.Machine

/-- Bytes that are not null are kept, and the trimming goes on behind them. -/
theorem trimAtNull_append {kept : List Byte} (h : 0 ∉ kept) (f : List Byte) :
    trimAtNull (kept ++ f) = kept ++ trimAtNull f := by
  induction kept with
  | nil => rfl
  | cons b kept ih =>
    obtain ⟨hb, hkept⟩ := List.ne_and_not_mem_of_not_mem_cons h
    rw [List.cons_append, trimAtNull, if_neg hb.symm, ih hkept, List.cons_append]

@[simp] theorem trimAtNull_null_cons (rest : List Byte) : trimAtNull (0 :: rest) = [] := if_pos rfl

/-- Settles O58: in both forms of the field the trimming keeps `kept`, for it stops at the null byte or at the end. -/
theorem stringIsTrimmedAtFirstNull : Obligations.StringIsTrimmedAtFirstNull := by
  intro s kept hfit hkept hin
  have htrim : trimAtNull s.request.in0 = kept := by
    rcases hin with hin | ⟨rest, hin⟩
    · rw [hin, ← List.append_nil kept, trimAtNull_append hkept, trimAtNull]
    · rw [hin, trimAtNull_append hkept, trimAtNull_null_cons, List.append_nil]
  have hexec : exec .strTrim s = .next { s with response := some (trimmed s.request.in0) } := exec_of_response rfl hfit
  rw [trimmed, htrim] at hexec
  exact ⟨zext64 kept.length, hexec, zext64_of_lt⟩

end Sys2Proof.Machine

/-! ### The timestamps (44_field_codec.md R185 to R187) -/

namespace Sys2Proof.Machine

theorem exec_timeJ2u (s : State) : exec .timeJ2u s = .next (s.checked (s.respond (unixOfJ2000 s.opA))) := rfl

theorem exec_timeU2j (s : State) : exec .timeU2j s = .next (s.checked (s.respond (j2000OfUnix s.opA))) := rfl

section Timestamps

variable {a : Operand}

/-- The sum of R185 does not reach 64 bits. -/
theorem unixOfJ2000_toNat (a : Operand) : (unixOfJ2000 a).r0.toNat = a.toNat + 946684800 := by
  have ha := a.isLt
  have hoffset : (BitVec.ofNat 64 j2000Offset).toNat = 946684800 := by decide
  have hwide : (a.setWidth 64).toNat = a.toNat := BitVec.toNat_setWidth_of_le (by decide)
  rw [unixOfJ2000, Response.done_r0, BitVec.toNat_add_of_lt (by omega), hwide, hoffset]

theorem j2000OfUnix_of_lt (h : a.toNat < 946684800) : j2000OfUnix a = .raised .operandRange := if_pos h

theorem j2000OfUnix_of_le (h : 946684800 ≤ a.toNat) : j2000OfUnix a = .done (BitVec.ofNat 64 (a.toNat - 946684800)) := by
  have ha := a.isLt
  rw [j2000OfUnix, j2000Offset, if_neg (Nat.not_lt.mpr h), zext64_of_lt (by omega)]

/-- The result of R186 is below 2^32, so that it fits the operand port again. -/
theorem j2000OfUnix_toNat (h : 946684800 ≤ a.toNat) :
    (j2000OfUnix a).r0.toNat = a.toNat - 946684800 ∧ ((j2000OfUnix a).r0.setWidth 32).toNat = a.toNat - 946684800 := by
  have ha := a.isLt
  rw [j2000OfUnix_of_le h, Response.done_r0, BitVec.toNat_setWidth, BitVec.toNat_ofNat]
  omega

/-- R186's corner case: J2U takes the result of U2J back to the timestamp it came from. -/
theorem unixOfJ2000_j2000OfUnix (h : 946684800 ≤ a.toNat) :
    (unixOfJ2000 ((j2000OfUnix a).r0.setWidth 32)).r0 = a.setWidth 64 := by
  obtain ⟨-, hback⟩ := j2000OfUnix_toNat h
  apply BitVec.eq_of_toNat_eq
  rw [unixOfJ2000_toNat, hback, BitVec.toNat_setWidth_of_le (by decide)]
  omega

end Timestamps

/-- Settles O59: each conversion answers its exact number, and TIME.U2J refuses a time before the epoch. -/
theorem timestampConversions : Obligations.TimestampConversions := by
  intro s hfit
  have hu2j : exec .timeU2j s = .next { s with response := some (j2000OfUnix s.request.a) } :=
    exec_of_response (exec_timeU2j s) hfit
  refine ⟨⟨_, exec_of_response (exec_timeJ2u s) hfit, unixOfJ2000_toNat _⟩, fun hle => ?_, fun hlt => ?_⟩
  · obtain ⟨hvalue, -⟩ := j2000OfUnix_toNat hle
    rw [j2000OfUnix_of_le hle] at hu2j hvalue
    exact ⟨_, hu2j, hvalue⟩
  · rw [hu2j, j2000OfUnix_of_lt hlt, Response.raised]

/-- Settles O60: the two runs answer the two conversions, which `unixOfJ2000_j2000OfUnix` composes. -/
theorem timestampRoundTrip : Obligations.TimestampRoundTrip := by
  intro s a h
  have hempty : ([] : List Byte).length ≤ s.cfg.maxBuf := Nat.zero_le _
  obtain ⟨t, hu2j⟩ := observe_of_response exec_timeU2j hempty a 0
  obtain ⟨u, hj2u⟩ := observe_of_response exec_timeJ2u hempty ((j2000OfUnix a).r0.setWidth 32) 0
  exact ⟨_, _, t, u, hu2j, hj2u, unixOfJ2000_j2000OfUnix h⟩

end Sys2Proof.Machine

/-! ### How an operation ends (60_exceptions.md R200 to R207): with `OK`, or with one status and no trace -/

namespace Sys2Proof.Machine

/-- The operations that raise a status by a check of their own: the table of R201, column "raised by", with R205 for
`OPERAND_RANGE`. The buffer check of R204 comes before these checks, and `ILLEGAL_OP` before there is an operation (R203). -/
def Status.raisers : Status → List Instr
  | .ok | .illegalOp => []
  | .needMore => [.frmRxlen]
  | .operandRange => [.crc8Tbl, .crc16Tbl, .crc32Tbl, .lenEnc, .frmEncx, .timeU2j]
  | .invalidShort =>
    [.lenDec, .frmChkx, .frmChkl, .intUnpackU8, .intUnpackU16, .intUnpackU32, .intUnpackS8, .intUnpackS16, .intUnpackS32]
  | .invalidMagic | .invalidLength => [.frmChkx, .frmChkl]
  | .invalidCmd | .invalidCrc => [.frmChkx]

/-- A response that completes, or raises a status of `xs`. -/
def Response.OkOr (xs : List Status) (r : Response) : Prop := r.status = .ok ∨ ∃ x ∈ xs, r = .raised x

/-! The statuses of each response that a check can turn down -/

section OkOr

variable {cfg : Config} {f : List Byte} {xs ys : List Status} {x : Status}

theorem Response.done_okOr {a b : Scalar} {o : List Byte} : (Response.done a b o).OkOr xs := .inl rfl

theorem Response.raised_okOr (hx : x ∈ xs) : (Response.raised x).OkOr xs := .inr ⟨x, hx, rfl⟩

theorem Response.OkOr.mono {r : Response} (hr : r.OkOr xs) (h : xs ⊆ ys) : r.OkOr ys :=
  hr.imp_right fun ⟨x, hx, hr⟩ => ⟨x, h hx, hr⟩

/-- One check in front of a response. -/
theorem Response.OkOr.check {p : Prop} [Decidable p] {r : Response} (hx : x ∈ xs) (hr : r.OkOr xs) :
    (if p then .raised x else r : Response).OkOr xs := by
  split
  · exact Response.raised_okOr hx
  · exact hr

theorem tableRead_okOr {w : Nat} (p : CrcParams w) (a : Operand) : (tableRead p a).OkOr [.operandRange] :=
  .check (by decide) Response.done_okOr

theorem lengthEncoded_okOr (a : Operand) : (lengthEncoded a).OkOr [.operandRange] :=
  .check (by decide) Response.done_okOr

theorem lengthDecoded_okOr (f : List Byte) : (lengthDecoded f).OkOr [.invalidShort] := by
  refine .check (by decide) ?_
  split
  · exact Response.raised_okOr (by decide)
  · exact Response.done_okOr

theorem frameEncoded_okOr (o i : Byte) (e : BitVec 16) : (frameEncoded cfg o i e f).OkOr [.operandRange] :=
  .check (by decide) Response.done_okOr

theorem replySplit_okOr (l k : Nat) : (replySplit cfg f l k).OkOr [.invalidShort, .invalidLength] :=
  .check (by decide) (.check (by decide) Response.done_okOr)

theorem replyChecked_okOr :
    (replyChecked cfg f).OkOr [.invalidShort, .invalidMagic, .invalidCmd, .invalidCrc, .invalidLength] := by
  refine .check (by decide) (.check (by decide) (.check (by decide) (.check (by decide) ?_)))
  split
  · exact Response.raised_okOr (by decide)
  · exact (replySplit_okOr _ _).mono (by decide)

theorem replyLength_okOr : (replyLength cfg f).OkOr [.needMore] := by
  refine .check (by decide) (.check (by decide) (.check (by decide) ?_))
  split
  · exact Response.raised_okOr (by decide)
  · exact Response.done_okOr

theorem legacySplit_okOr (x : Arrangement) (m : List Byte) (n : Nat) :
    (legacySplit cfg x m n f).OkOr [.invalidShort, .invalidMagic, .invalidLength] :=
  .check (by decide) (.check (by decide) (.check (by decide) (.check (by decide) Response.done_okOr)))

theorem State.unpacked_okOr (s : State) (w : IntWidth) (signed : Bool) : (s.unpacked w signed).OkOr [.invalidShort] :=
  .check (by decide) Response.done_okOr

theorem j2000OfUnix_okOr (a : Operand) : (j2000OfUnix a).OkOr [.operandRange] :=
  .check (by decide) Response.done_okOr

end OkOr

/-- The two ends of an operation (R200, R202): it completes with `OK`, or it raises one status and does nothing else. What
raises the status is the buffer check (R204) or a check of the operation's own (R201). -/
inductive Ends (i : Instr) (s : State) : Prop where
  | completed (t : State) (resp : Response) (hexec : exec i s = .next t) (hresp : t.response = some resp)
      (hok : resp.status = .ok)
  | raised (x : Status) (hexec : exec i s = .next (s.raise x))
      (hx : (s.cfg.maxBuf < s.opIn.length ∧ x = .operandRange) ∨ i ∈ x.raisers)

section Ends

variable {i : Instr} {s u : State} {r : Response}

/-- The buffer check of every operation (R204). -/
theorem exec_of_tooLong (hlong : s.cfg.maxBuf < s.opIn.length) (i : Instr) : exec i s = .next (s.raise .operandRange) := by
  obtain ⟨r, h | ⟨e, v, -, h⟩⟩ := exec_writes_own_acc i s <;> rw [h, State.checked_of_tooLong hlong]

/-- Only a request within the buffer limit gets to an operation's own checks (R208). -/
theorem Ends.of_fits (h : s.request.WellFormed s.cfg → Ends i s) : Ends i s := by
  rcases Nat.lt_or_ge s.cfg.maxBuf s.opIn.length with hlong | hfit
  · exact .raised .operandRange (exec_of_tooLong hlong i) (.inl ⟨hlong, rfl⟩)
  · exact h hfit

theorem Ends.of_ok (harm : exec i s = .next (s.checked (u.respond r))) (hok : r.status = .ok) : Ends i s :=
  .of_fits fun hfit => .completed _ r (exec_of_checked harm hfit) rfl hok

theorem Ends.of_okOr {xs : List Status} (harm : exec i s = .next (s.checked (s.respond r))) (hr : r.OkOr xs)
    (hxs : ∀ x ∈ xs, i ∈ x.raisers) : Ends i s := by
  rcases hr with hok | ⟨x, hx, rfl⟩
  · exact .of_ok harm hok
  · exact .of_fits fun hfit => .raised x (exec_of_checked harm hfit) (.inr (hxs x hx))

/-- Every operation ends in one of the two ways, by the statuses its response can have. -/
theorem exec_ends (i : Instr) (s : State) : Ends i s := by
  cases i
  case crc8Tbl | crc16Tbl | crc32Tbl => exact .of_okOr rfl (tableRead_okOr _ _) (by decide)
  case lenEnc => exact .of_okOr rfl (lengthEncoded_okOr _) (by decide)
  case lenDec => exact .of_okOr rfl (lengthDecoded_okOr _) (by decide)
  case frmEncx => exact .of_okOr rfl (frameEncoded_okOr _ _ _) (by decide)
  case frmChkx => exact .of_okOr rfl replyChecked_okOr (by decide)
  case frmRxlen => exact .of_okOr rfl replyLength_okOr (by decide)
  case frmChkl => exact .of_okOr rfl (legacySplit_okOr _ _ _) (by decide)
  case intUnpackU8 | intUnpackU16 | intUnpackU32 | intUnpackS8 | intUnpackS16 | intUnpackS32 =>
    exact .of_okOr rfl (s.unpacked_okOr _ _) (by decide)
  case timeU2j => exact .of_okOr rfl (j2000OfUnix_okOr _) (by decide)
  all_goals exact .of_ok rfl rfl

end Ends

/-- Settles O18: within the buffer limit a status other than `OK` was raised by one of its raisers. -/
theorem statusesComeOnlyFromTheirOperations : Obligations.StatusesComeOnlyFromTheirOperations := by
  intro i s t resp hfit hexec hresp
  have hraiser : resp.status ≠ .ok → i ∈ resp.status.raisers := by
    intro hne
    rcases exec_ends i s with ⟨t', resp', hexec', hresp', hok⟩ | ⟨x, hexec', hx⟩
    all_goals obtain rfl := Host.Outcome.next.inj (hexec'.symm.trans hexec)
    · cases hresp'.symm.trans hresp
      exact absurd hok hne
    · cases hresp
      exact hx.resolve_left fun ⟨hlong, _⟩ => Nat.not_lt.mpr hfit hlong
  have hof {x : Status} (hne : x ≠ .ok) (h : resp.status = x) : i ∈ x.raisers := h ▸ hraiser (h ▸ hne)
  exact ⟨fun h => List.not_mem_nil (hof (by decide) h), fun h => List.mem_singleton.mp (hof (by decide) h), hof (by decide),
    hof (by decide), hof (by decide), fun h => List.mem_singleton.mp (hof (by decide) h),
    fun h => List.mem_singleton.mp (hof (by decide) h), hof (by decide)⟩

end Sys2Proof.Machine

/-! ### How a step ends (60_exceptions.md R202 to R204, R217; 70_reset_and_hazards.md R231, R251, R254) -/

namespace Sys2Proof.Machine

section Step

variable {s : State} {r : Request} {rest : List HostMove}

theorem step_of_idle (hhost : s.host = []) : step s = .next s := by
  rw [step, hhost, State.idle_eq]

/-- A word that selects no operation is refused whatever the operands are (R203). -/
theorem step_of_decode_error {e : Illegal} (hhost : s.host = .request r :: rest) (hdecode : decode r.cw = .error e) :
    step s = .next ((s.present r rest).raise .illegalOp) := by
  rcases step_cases s with ⟨h, -⟩ | ⟨_, h, -⟩ | ⟨_, _, _, h, -, hstep⟩ | ⟨_, _, i, h, hd, -⟩
  all_goals cases hhost.symm.trans h
  · exact hstep
  · cases hdecode.symm.trans hd

/-- A request is answered, and the configuration is kept (R200, R231). -/
theorem step_answers (hhost : s.host = .request r :: rest) :
    ∃ t resp, step s = .next t ∧ t.response = some resp ∧ t.cfg = s.cfg ∧ t.request = r ∧ t.host = rest := by
  cases hd : decode r.cw with
  | error e => exact ⟨_, _, step_of_decode_error hhost hd, rfl, rfl, rfl, rfl⟩
  | ok i =>
    have hstep := step_of_decode_ok hhost hd
    rcases exec_ends i (s.present r rest) with ⟨t, resp, hexec, hresp, -⟩ | ⟨x, hexec, -⟩
    · obtain ⟨-, hframe⟩ := exec_frame hexec
      exact ⟨t, resp, hstep.trans hexec, hresp, hframe⟩
    · exact ⟨_, _, hstep.trans hexec, rfl, rfl, rfl, rfl⟩

end Step

/-- Settles O6: with no move left a step is `State.idle`. -/
theorem idleBlockHoldsItsState : Obligations.IdleBlockHoldsItsState := fun _ hhost => step_of_idle hhost

/-- Settles O17: the word is decoded first, and the buffer check is the first thing every operation does. -/
theorem bufferLimitComesFirst : Obligations.BufferLimitComesFirst := by
  intro s r rest hhost hlong
  cases hd : decode r.cw with
  | error e => exact step_of_decode_error hhost hd
  | ok i => exact (step_of_decode_ok hhost hd).trans (exec_of_tooLong (s := s.present r rest) hlong i)

/-- Settles O16: a request is refused before it selects an operation, or the operation ends in one of its two ways. -/
theorem failedRequestsLeaveNoTrace : Obligations.FailedRequestsLeaveNoTrace := by
  intro s t r rest resp hhost hstep hresp hne
  suffices h : ∃ x, t = (s.present r rest).raise x by
    obtain ⟨x, rfl⟩ := h
    cases hresp
    rfl
  cases hd : decode r.cw with
  | error e => exact ⟨_, Host.Outcome.next.inj (hstep.symm.trans (step_of_decode_error hhost hd))⟩
  | ok i =>
    rw [step_of_decode_ok hhost hd] at hstep
    rcases exec_ends i (s.present r rest) with ⟨t', resp', hexec, hresp', hok⟩ | ⟨x, hexec, -⟩
    · cases hexec.symm.trans hstep
      cases hresp'.symm.trans hresp
      exact absurd hok hne
    · exact ⟨x, Host.Outcome.next.inj (hstep.symm.trans hexec)⟩

/-- Settles O13, by the host's next move. -/
theorem everyStepAnswers : Obligations.EveryStepAnswers := by
  intro s
  rcases hhost : s.host with _ | ⟨r | _, rest⟩
  · exact ⟨s, step_of_idle hhost, rfl, hhost, nofun⟩
  · obtain ⟨t, resp, hstep, hresp, hcfg, hrequest, hrest⟩ := step_answers hhost
    refine ⟨t, hstep, hcfg, hrest, fun r' rest' h => ?_⟩
    cases h
    exact ⟨hrequest, resp, hresp⟩
  · refine ⟨(s.withHost rest).applyReset, ?_, rfl, rfl, nofun⟩
    rw [step, hhost]

/-- Settles O14, by induction on the requests: each is answered with one response. -/
theorem everyRunEnds : Obligations.EveryRunEnds := by
  intro rs
  induction rs with
  | nil => exact fun s => ⟨[], s, rfl, rfl, rfl⟩
  | cons r rs ih =>
    intro s
    obtain ⟨t, resp, hserve, hresp, hcfg, -⟩ := step_answers (s := s.withHost [.request r]) rfl
    obtain ⟨os, u, hrest, hlen, hu⟩ := ih t
    refine ⟨_, u, observe_cons hserve hrest, ?_, hu.trans hcfg⟩
    simp [hresp, hlen]

/-! The illegal words (R203) -/

/-- The operation codes of R66. -/
abbrev assignedCodes : List Byte :=
  [0x10, 0x11, 0x12, 0x13, 0x14, 0x15, 0x16, 0x20, 0x21, 0x22, 0x23, 0x24, 0x25, 0x26, 0x30, 0x31, 0x32,
    0x33, 0x34, 0x35, 0x36, 0x40, 0x41, 0x50, 0x51, 0x60, 0x61, 0x62, 0x70, 0x71, 0x72, 0x73, 0x74, 0x75]

/-- The words R203 calls illegal: a code that is not assigned, or a modifier that the operation does not allow. -/
abbrev IllegalWord (cw : CommandWord) : Prop :=
  opcOf cw ∉ assignedCodes ∨
    (opcOf cw ∈ ([0x70, 0x71, 0x72] : List Byte) ∧ (cw.extractLsb' 0 2 = 3 ∨ cw.extractLsb' 3 5 ≠ 0)) ∨
    (opcOf cw ∉ ([0x70, 0x71, 0x72] : List Byte) ∧ modOf cw ≠ 0)

theorem Instr.opc_mem_assignedCodes (i : Instr) : i.opc ∈ assignedCodes := by cases i <;> decide

theorem exists_opc_of_mem_assignedCodes : ∀ c ∈ assignedCodes, ∃ i ∈ allInstrs, i.opc = c := by decide

/-- The decoder refuses the illegal words and no other. -/
theorem illegalWord_iff (cw : CommandWord) : IllegalWord cw ↔ ∃ e, decode cw = .error e := by
  have hform : (cw.extractLsb' 0 2 = 3 ∨ cw.extractLsb' 3 5 ≠ 0) ↔ IllegalForm (modOf cw) := by
    rw [IllegalForm, modOf_extractLsb' cw (by decide), modOf_extractLsb' cw (by decide)]
  rw [IllegalWord, hform]
  rcases decode_cases cw with ⟨hd, hno⟩ | ⟨i, hd, hopc, -, hplain⟩ | ⟨form, hd, hfields, hint⟩
  · refine iff_of_true (.inl fun hmem => ?_) ⟨_, hd⟩
    obtain ⟨i, -, hi⟩ := exists_opc_of_mem_assignedCodes _ hmem
    exact hno i hi
  · have hmem : opcOf cw ∈ assignedCodes := hopc ▸ Instr.opc_mem_assignedCodes i
    simp only [hmem, hplain, hd, decodePlain_eq_error_iff, not_true, not_false_eq_true, false_and, true_and, false_or,
      exists_and_left, exists_eq', and_true]
  · obtain ⟨hopc, -⟩ := hfields .one false
    have hmem : opcOf cw ∈ assignedCodes := hopc ▸ Instr.opc_mem_assignedCodes (form .one false)
    simp only [hmem, hint, hd, decodeForms_eq_error_iff, not_true, false_and, true_and, false_or, or_false,
      exists_and_left, exists_eq', and_true]

/-- Settles O4: an illegal word is refused by the decoder; a legal one runs an operation, and no operation raises `ILLEGAL_OP`. -/
theorem illegalRequestsExactly : Obligations.IllegalRequestsExactly := by
  intro s r rest hhost illegal
  have hillegal : illegal ↔ ∃ e, decode r.cw = .error e := illegalWord_iff r.cw
  cases hd : decode r.cw with
  | error e =>
    have hyes : illegal := hillegal.mpr ⟨e, hd⟩
    exact ⟨fun _ => step_of_decode_error hhost hd, fun hno => absurd hyes hno⟩
  | ok i =>
    have hno : ¬ illegal := by simp [hillegal, hd]
    refine ⟨fun hyes => absurd hyes hno, fun _ => ?_⟩
    rw [step_of_decode_ok hhost hd]
    rcases exec_ends i (s.present r rest) with ⟨t, resp, hexec, hresp, hok⟩ | ⟨x, hexec, hx⟩
    · exact ⟨t, resp, hexec, hresp, by rw [hok]; decide⟩
    · refine ⟨_, _, hexec, rfl, ?_⟩
      rintro rfl
      rcases hx with ⟨-, hx⟩ | hx <;> cases hx

end Sys2Proof.Machine

/-! ### The status codes (60_exceptions.md R201) -/

namespace Sys2Proof.Machine

/-- The statuses in the order of R201. -/
def allStatuses : List Status :=
  [.ok, .needMore, .illegalOp, .operandRange, .invalidShort, .invalidMagic, .invalidCmd, .invalidCrc, .invalidLength]

theorem mem_allStatuses (x : Status) : x ∈ allStatuses := by cases x <;> decide

theorem allStatuses_codes_nodup : (allStatuses.map Status.code).Nodup := by decide

theorem Status.code_injective : Function.Injective Status.code := fun x y h =>
  List.inj_on_of_nodup_map allStatuses_codes_nodup (mem_allStatuses x) (mem_allStatuses y) h

/-- Settles O15: the table of R201, whose codes are nine different ones. -/
theorem statusCodesAreAsListed : Obligations.StatusCodesAreAsListed :=
  ⟨rfl, rfl, rfl, rfl, rfl, rfl, rfl, rfl, rfl, Status.code_injective⟩

end Sys2Proof.Machine

/-! ### The reset event and the clears (70_reset_and_hazards.md R230 to R233) -/

namespace Sys2Proof.Machine

section Reset

variable {s t : State} {rest : List HostMove}

theorem State.accs_eq_of_acc_eq (h : ∀ e, s.acc e = t.acc e) : s.accs = t.accs :=
  Prod.ext (h .crc8) (Prod.ext (h .crc16) (h .crc32))

@[simp] theorem State.applyReset_acc (s : State) (e : Engine) : s.applyReset.acc e = (engineParams s.cfg e).init := by
  cases e <;> rfl

theorem step_of_reset (hhost : s.host = .reset :: rest) : step s = .next (s.withHost rest).applyReset := by
  rw [step, hhost]

end Reset

section Clears

variable {a b : Operand} {p : List Instr}

theorem Engine.clr_injective : Function.Injective Engine.clr := by
  intro e e' h
  cases e <;> cases e' <;> cases h <;> rfl

/-- The three clears of R233 are the clears of the engines. -/
theorem mem_clears_iff {i : Instr} : i ∈ [Instr.crc8Clr, .crc16Clr, .crc32Clr] ↔ ∃ e : Engine, e.clr = i := by
  constructor
  · simp only [List.mem_cons, List.not_mem_nil, or_false]
    rintro (rfl | rfl | rfl)
    exacts [⟨.crc8, rfl⟩, ⟨.crc16, rfl⟩, ⟨.crc32, rfl⟩]
  · rintro ⟨e, rfl⟩
    cases e <;> decide

/-- A clear is served with its own accumulator set, and the other ones and the configuration kept. -/
theorem State.serve_clr (s : State) (e : Engine) :
    ∃ t, s.serve (requestFor e.clr a b []) = .next t ∧ t.cfg = s.cfg ∧ t.acc e = (engineParams s.cfg e).init ∧
      ∀ e' ≠ e, t.acc e' = s.acc e' := by
  refine ⟨_, (serve_requestFor e.clr a b [] s).trans (exec_clr (Nat.zero_le _)), by simp, by simp, fun e' he => ?_⟩
  rw [State.respond_acc, State.setAcc_acc_other _ _ he, State.present_acc]

/-- After a run of clears an accumulator is at its initial value if its clear was among them, or if it was there before. -/
theorem observe_clears (hp : ∀ i ∈ p, ∃ e : Engine, e.clr = i) (s : State) :
    ∃ os u, observe (p.map fun i => requestFor i a b []) s = .next (os, u) ∧ u.cfg = s.cfg ∧
      ∀ e : Engine, e.clr ∈ p ∨ s.acc e = (engineParams s.cfg e).init → u.acc e = (engineParams s.cfg e).init := by
  induction p generalizing s with
  | nil => exact ⟨[], s, rfl, rfl, fun e he => he.resolve_left List.not_mem_nil⟩
  | cons i p ih =>
    obtain ⟨e₀, rfl⟩ := hp i List.mem_cons_self
    obtain ⟨t, hserve, hcfg, hown, hother⟩ := s.serve_clr e₀ (a := a) (b := b)
    obtain ⟨os, u, hrest, hcfg', hacc⟩ := ih (fun j hj => hp j (List.mem_cons_of_mem _ hj)) t
    rw [hcfg] at hcfg' hacc
    refine ⟨_, u, observe_cons hserve hrest, hcfg', fun e he => hacc e ?_⟩
    by_cases heq : e = e₀
    · exact .inr (heq ▸ hown)
    · rw [hother e heq]
      exact he.imp_left fun hmem => List.mem_of_ne_of_mem (Engine.clr_injective.ne heq) hmem

end Clears

/-- Settles O8: in any order, each engine's clear is among the three, so each accumulator ends at the value reset gives it. -/
theorem resetEqualsThreeClears : Obligations.ResetEqualsThreeClears := by
  intro s p a b hperm
  obtain ⟨os, u, hrun, hcfg, hacc⟩ := observe_clears (a := a) (b := b) (fun i hi => mem_clears_iff.mp (hperm.subset hi)) s
  have hclr (e : Engine) : e.clr ∈ p := hperm.symm.subset (mem_clears_iff.mpr ⟨e, rfl⟩)
  refine ⟨os, u, _, hrun, step_of_reset rfl, State.accs_eq_of_acc_eq fun e => ?_, hcfg⟩
  rw [hacc e (.inl (hclr e)), State.applyReset_acc, State.withHost_cfg, State.withHost_cfg]

/-- Settles O7, by the reset case of `step`. -/
theorem resetEventLoadsInitialValues : Obligations.ResetEventLoadsInitialValues := fun _ _ hhost => step_of_reset hhost

end Sys2Proof.Machine
